-- ==== Sys2Proof/Word.lean ====
section
/-! DEFINITION. The plain widths, the two ports, and the pair and four-word records that the state is built of. -/

namespace Sys2Proof

/-- One byte of a block or of host memory. -/
abbrev Byte := BitVec 8

/-- A 32-bit value: a command argument, a response word, a clock frequency, an address (00_scope.md R8). -/
abbrev Word := BitVec 32

/-- The two card ports, one per device slot: 0 the removable card, 1 the embedded eMMC (00_scope.md R6, 10_state.md R21). -/
inductive Port where
  | p0
  | p1
deriving DecidableEq, Repr, Inhabited

/-- The port that `p` is not: `o = 1 − d` of 60_exceptions.md R300. -/
def Port.other : Port → Port
  | .p0 => .p1
  | .p1 => .p0

/-- One value per port. -/
structure Pair (α : Type) where
  p0 : α
  p1 : α
deriving DecidableEq, Repr, Inhabited

/-- The value of port `p`. -/
def Pair.get {α : Type} (x : Pair α) : Port → α
  | .p0 => x.p0
  | .p1 => x.p1

/-- Replace the value of port `p`. -/
def Pair.set {α : Type} (x : Pair α) (p : Port) (v : α) : Pair α :=
  match p with
  | .p0 => { x with p0 := v }
  | .p1 => { x with p1 := v }

/-- Four 32-bit words, `w0` the least significant: the response registers (10_state.md R41) and a CID (R27). -/
structure Words4 where
  w0 : Word
  w1 : Word
  w2 : Word
  w3 : Word
deriving DecidableEq, Repr, Inhabited

/-- Four zero words. -/
def Words4.zero : Words4 := ⟨0, 0, 0, 0⟩

/-- The 128-bit value of four words, most significant word first in the concatenation (20_memory.md R64(d)). -/
def Words4.toBits (w : Words4) : BitVec 128 := w.w3 ++ w.w2 ++ w.w1 ++ w.w0

end Sys2Proof
end

