-- ==== Sys2Proof/Syntax.lean ====
section
/-! DEFINITION. The operations of the three interfaces: one constructor of Instr per row of spec/opcode_table.json (00_scope.md R3,
30_encoding.md R85), and the words they are presented as. -/

namespace Sys2Proof

/-- Response kinds (30_encoding.md R91). -/
inductive RespKind where
  | none | r1 | r1b | r2 | r3 | r6 | r7
deriving DecidableEq, Repr, Inhabited

/-- Data directions (30_encoding.md R92): `read` is card to host. -/
inductive Dir where
  | none | read | write
deriving DecidableEq, Repr, Inhabited

/-- A well-formed command descriptor, the CD word with its codes resolved (30_encoding.md R90). -/
structure Descriptor where
  rk : RespKind
  dir : Dir
  index : BitVec 6
  arg : Word
deriving DecidableEq, Repr, Inhabited

/-- The buffer pointer of a transfer request: null or an address (20_memory.md R61), a number whose width is the platform's. -/
inductive HostBuf where
  | null
  | addr (a : Nat)
deriving DecidableEq, Repr, Inhabited

/-- The buffer operand of `issue`: an address, null, or the sequencer's scratch (30_encoding.md R89). -/
inductive PrimBuf where
  | null
  | addr (a : Nat)
  | scratch
deriving DecidableEq, Repr, Inhabited

/-- The eight host operations, in the order of their numbers (30_encoding.md R87). -/
inductive HostOp where
  | init | deinit | getDevInfo | getCid | getWriteProtBits | getSectors | readSectors | writeSectors
deriving DecidableEq, Repr, Inhabited

/-- An operation: host requests (format HR), primitive operations (PO), card commands (CD), in the order of the opcode table. Every HR
word carries `devNum`, `count` and `sect`, used or not (R86); PO operations that name a port carry it (R88). -/
inductive Instr where
  | init (devNum : BitVec 8) (count : BitVec 16) (sect : Word)
  | deinit (devNum : BitVec 8) (count : BitVec 16) (sect : Word)
  | getDevInfo (devNum : BitVec 8) (count : BitVec 16) (sect : Word)
  | getCid (devNum : BitVec 8) (count : BitVec 16) (sect : Word)
  | getWriteProtBits (devNum : BitVec 8) (count : BitVec 16) (sect : Word)
  | getSectors (devNum : BitVec 8) (count : BitVec 16) (sect : Word)
  | readSectors (devNum : BitVec 8) (count : BitVec 16) (sect : Word) (buf : HostBuf)
  | writeSectors (devNum : BitVec 8) (count : BitVec 16) (sect : Word) (buf : HostBuf)
  | issue (p : Port) (cd : Descriptor) (blockCount blockSize : BitVec 16) (buf : PrimBuf)
  | setClock (p : Port) (hz : Word)
  | setBusWidth (p : Port) (w : Word)
  | cardPresent (p : Port)
  | writeProtectPin (p : Port)
  | cmdResponseR1
  | cmdResponseR1b
  | cmdResponseR2
  | cmdResponseR3
  | cmdResponseR6
  | cmdResponseR7
  | ctlReset
  | goIdleState
  | sendIfCond
  | appCmd (rca : BitVec 16)
  | sdSendOpCond (hcs : Bool) (vdd : BitVec 16)
  | sendOpCond (vdd : BitVec 16)
  | allSendCid
  | sendRelativeAddr
  | setRelativeAddr (rca : BitVec 16)
  | sendCsd (rca : BitVec 16)
  | selectCard (rca : BitVec 16)
  | sendExtCsd
  | switchFunc
  | switch (index value : BitVec 8)
  | sendStatus (rca : BitVec 16)
  | setClrCardDetect
  | acmdSetBusWidth
  | readSingleBlock (arg : Word)
  | readMultipleBlock (arg : Word)
  | writeBlock (arg : Word)
  | writeMultipleBlock (arg : Word)
  | setBlockCount (count : BitVec 16)
  | stopTransmission
deriving DecidableEq, Repr

/-- The operands of `issue` beside its PO word (30_encoding.md R89): the CD word is still raw. -/
structure IssueOperands where
  cd : BitVec 48
  blockCount : BitVec 16
  blockSize : BitVec 16
  buf : PrimBuf
deriving DecidableEq, Repr, Inhabited

/-- Operands of zeros: the CD word of CMD0, no data, the null buffer. -/
def IssueOperands.zero : IssueOperands := ⟨0, 0, 0, .null⟩

/-- An operation as it is presented at its interface: the word of its format (30_encoding.md R85) with the operands that the format
keeps outside the word (R86, R88, R89). -/
inductive OpWord where
  /-- At the host interface: the 64-bit HR word and the buffer pointer. -/
  | hr (w : BitVec 64) (buf : HostBuf)
  /-- At the primitive interface: the 40-bit PO word, the port, and the operands of `issue`. -/
  | po (w : BitVec 40) (p : Port) (x : IssueOperands)
  /-- At the card-command interface: the 48-bit CD word. -/
  | cd (w : BitVec 48)
deriving DecidableEq, Repr, Inhabited

end Sys2Proof
end

