-- ==== Sys2Proof/Decode.lean ====
section
/-! DEFINITION. The decoder of the three formats (30_encoding.md R85 to R92, R105 to R107), total and rejecting by name; after it the
encoder, written from the same tables, and the descriptor of each card command. -/

namespace Sys2Proof

/-- Why a word is no operation (30_encoding.md R107). -/
inductive DecodeError where
  /-- HR `op` 8 to 255: no such entry point. -/
  | noHostOp (op : Nat)
  /-- PO `op` 0x0C to 0xFF: no such operation. -/
  | noPrimOp (op : Nat)
  /-- A CD word with `rk` = 7, `dir` = 3 or a reserved bit set: not a descriptor. -/
  | notDescriptor
  /-- A well-formed descriptor that matches no row of R105, or the row of an application command where no CMD55 precedes (R104, R106). -/
  | unlistedCommand
deriving DecidableEq, Repr

/-! ### Decoding -/

/-- Response kind of a code (R91); 7 is reserved. -/
def RespKind.ofCode (c : BitVec 3) : Option RespKind :=
  match c.toNat with
  | 0 => some .none
  | 1 => some .r1
  | 2 => some .r1b
  | 3 => some .r2
  | 4 => some .r3
  | 5 => some .r6
  | 6 => some .r7
  | _ => Option.none

/-- Direction of a code (R92); 3 is reserved. -/
def Dir.ofCode (c : BitVec 2) : Option Dir :=
  match c.toNat with
  | 0 => some .none
  | 1 => some .read
  | 2 => some .write
  | _ => Option.none

/-- The fields of a CD word (R90): bits 47:45 and 39:38 must be 0. -/
def Descriptor.ofWord (w : BitVec 48) : Option Descriptor :=
  if w.extractLsb 47 45 = 0 ∧ w.extractLsb 39 38 = 0 then
    match RespKind.ofCode (w.extractLsb 44 42), Dir.ofCode (w.extractLsb 41 40) with
    | some rk, some dir => some ⟨rk, dir, w.extractLsb 37 32, w.extractLsb 31 0⟩
    | _, _ => Option.none
  else Option.none

/-- The host request of an HR word (R86, R87). -/
def decodeHost (w : BitVec 64) (buf : HostBuf) : Except DecodeError Instr :=
  let devNum : BitVec 8 := w.extractLsb 55 48
  let count : BitVec 16 := w.extractLsb 47 32
  let sect : Word := w.extractLsb 31 0
  match (w.extractLsb 63 56).toNat with
  | 0 => .ok (.init devNum count sect)
  | 1 => .ok (.deinit devNum count sect)
  | 2 => .ok (.getDevInfo devNum count sect)
  | 3 => .ok (.getCid devNum count sect)
  | 4 => .ok (.getWriteProtBits devNum count sect)
  | 5 => .ok (.getSectors devNum count sect)
  | 6 => .ok (.readSectors devNum count sect buf)
  | 7 => .ok (.writeSectors devNum count sect buf)
  | op => .error (.noHostOp op)

/-- The primitive operation of a PO word (R88). The operand is read where the operation has one; `issue` takes its descriptor from its
own operands (R89). -/
def decodePrim (w : BitVec 40) (p : Port) (x : IssueOperands) : Except DecodeError Instr :=
  match (w.extractLsb 39 32).toNat with
  | 0x00 =>
    match Descriptor.ofWord x.cd with
    | some cd => .ok (.issue p cd x.blockCount x.blockSize x.buf)
    | Option.none => .error .notDescriptor
  | 0x01 => .ok (.setClock p (w.extractLsb 31 0))
  | 0x02 => .ok (.setBusWidth p (w.extractLsb 31 0))
  | 0x03 => .ok (.cardPresent p)
  | 0x04 => .ok (.writeProtectPin p)
  | 0x05 => .ok .cmdResponseR1
  | 0x06 => .ok .cmdResponseR1b
  | 0x07 => .ok .cmdResponseR2
  | 0x08 => .ok .cmdResponseR3
  | 0x09 => .ok .cmdResponseR6
  | 0x0A => .ok .cmdResponseR7
  | 0x0B => .ok .ctlReset
  | op => .error (.noPrimOp op)

/-- A fixed argument: the command if the argument is `want`. -/
def fixedArg (arg want : Word) (i : Instr) : Option Instr := if arg = want then some i else Option.none

/-- An RCA-addressed argument, low half 0 (R99). -/
def rcaOfArg (arg : Word) (i : BitVec 16 → Instr) : Option Instr :=
  if arg.extractLsb 15 0 = 0 then some (i (arg.extractLsb 31 16)) else Option.none

/-- The card command of a descriptor: the row of R105 whose triple (`index`, `rk`, `dir`) and fixed argument bits it has, and for index 6,
41 and 42 whether it follows an accepted CMD55 (R106): `app` says so, no bit of the word does (R104). -/
def commandOf (app : Bool) (d : Descriptor) : Option Instr :=
  match d.index.toNat, d.rk, d.dir with
  | 0, .none, .none => fixedArg d.arg 0 .goIdleState
  | 8, .r7, .none => fixedArg d.arg 0x1AA .sendIfCond
  | 55, .r1, .none => rcaOfArg d.arg .appCmd
  | 41, .r3, .none =>
    if app = true ∧ d.arg.extractLsb 31 31 = 0 ∧ d.arg.extractLsb 29 24 = 0 ∧ d.arg.extractLsb 7 0 = 0 then
      some (.sdSendOpCond (d.arg.getLsbD 30) (d.arg.extractLsb 23 8))
    else Option.none
  | 1, .r3, .none =>
    if d.arg.extractLsb 31 24 = 0x40 ∧ d.arg.extractLsb 7 0 = 0 then some (.sendOpCond (d.arg.extractLsb 23 8)) else Option.none
  | 2, .r2, .none => fixedArg d.arg 0 .allSendCid
  | 3, .r6, .none => fixedArg d.arg 0 .sendRelativeAddr
  | 3, .r1, .none => rcaOfArg d.arg .setRelativeAddr
  | 9, .r2, .none => rcaOfArg d.arg .sendCsd
  | 7, .r1b, .none => rcaOfArg d.arg .selectCard
  | 8, .r1, .read => fixedArg d.arg 0 .sendExtCsd
  | 6, .r1, .read => if app then Option.none else fixedArg d.arg 0x80FFFFF1 .switchFunc
  | 6, .r1b, .none =>
    if app = false ∧ d.arg.extractLsb 31 24 = 3 ∧ d.arg.extractLsb 7 0 = 0 then
      some (.switch (d.arg.extractLsb 23 16) (d.arg.extractLsb 15 8))
    else Option.none
  | 13, .r1, .none => rcaOfArg d.arg .sendStatus
  | 42, .r1, .none => if app then fixedArg d.arg 0 .setClrCardDetect else Option.none
  | 6, .r1, .none => if app then fixedArg d.arg 2 .acmdSetBusWidth else Option.none
  | 17, .r1, .read => some (.readSingleBlock d.arg)
  | 18, .r1, .read => some (.readMultipleBlock d.arg)
  | 24, .r1, .write => some (.writeBlock d.arg)
  | 25, .r1, .write => some (.writeMultipleBlock d.arg)
  | 23, .r1, .none => if d.arg.extractLsb 31 16 = 0 then some (.setBlockCount (d.arg.extractLsb 15 0)) else Option.none
  | 12, .r1b, .none => fixedArg d.arg 0 .stopTransmission
  | _, _, _ => Option.none

/-- The card command of a CD word (R90, R106); `app`: it follows an accepted CMD55. -/
def decodeCommand (app : Bool) (w : BitVec 48) : Except DecodeError Instr :=
  match Descriptor.ofWord w with
  | Option.none => .error .notDescriptor
  | some d =>
    match commandOf app d with
    | some i => .ok i
    | Option.none => .error .unlistedCommand

/-- The decoder: the word's interface fixes its format (R85); `app` says whether the last command before the word is an accepted CMD55, which
matters for a CD word only (R104, R106). -/
def decode (app : Bool) : OpWord → Except DecodeError Instr
  | .hr w buf => decodeHost w buf
  | .po w p x => decodePrim w p x
  | .cd w => decodeCommand app w

/-- Where an operation's word stands for it: the application commands after a CMD55, the other commands of index 6 not after one, every other
operation anywhere (R104, R106). -/
def Instr.selectedAfter (app : Bool) : Instr → Bool
  | .sdSendOpCond _ _ | .setClrCardDetect | .acmdSetBusWidth => app
  | .switchFunc | .switch _ _ => !app
  | .init _ _ _ | .deinit _ _ _ | .getDevInfo _ _ _ | .getCid _ _ _ | .getWriteProtBits _ _ _ | .getSectors _ _ _
  | .readSectors _ _ _ _ | .writeSectors _ _ _ _ | .issue _ _ _ _ _ | .setClock _ _ | .setBusWidth _ _ | .cardPresent _
  | .writeProtectPin _ | .cmdResponseR1 | .cmdResponseR1b | .cmdResponseR2 | .cmdResponseR3 | .cmdResponseR6 | .cmdResponseR7
  | .ctlReset | .goIdleState | .sendIfCond | .appCmd _ | .sendOpCond _ | .allSendCid | .sendRelativeAddr | .setRelativeAddr _
  | .sendCsd _ | .selectCard _ | .sendExtCsd | .sendStatus _ | .readSingleBlock _ | .readMultipleBlock _ | .writeBlock _
  | .writeMultipleBlock _ | .setBlockCount _ | .stopTransmission => true

/-- A CD word stands for an application command: it is no operation unless it follows a CMD55 (R104). -/
def needsAppCmd (w : BitVec 48) : Bool :=
  !(decodeCommand false w).toBool && (decodeCommand true w).toBool

/-- The instruction that the decoder reads from a word of the opcode table: 64 bits are an HR word, 40 a PO word, 48 a CD word; the
operands that stand outside the word are zeros (port 0, null buffer, zero descriptor). The word of an application command is read as it is
after CMD55. -/
def decodeTableWord (nbits w : Nat) : Option Instr :=
  if w < 2 ^ nbits then
    match nbits with
    | 64 => (decode false (.hr (BitVec.ofNat 64 w) .null)).toOption
    | 40 => (decode false (.po (BitVec.ofNat 40 w) .p0 IssueOperands.zero)).toOption
    | 48 => (decode (needsAppCmd (BitVec.ofNat 48 w)) (.cd (BitVec.ofNat 48 w))).toOption
    | _ => Option.none
  else Option.none

/-! ### Encoding -/

/-- Code of a response kind (R91). -/
def RespKind.code : RespKind → BitVec 3
  | .none => 0
  | .r1 => 1
  | .r1b => 2
  | .r2 => 3
  | .r3 => 4
  | .r6 => 5
  | .r7 => 6

/-- Code of a direction (R92). -/
def Dir.code : Dir → BitVec 2
  | .none => 0
  | .read => 1
  | .write => 2

/-- Operation number of a host request (R87). -/
def HostOp.code : HostOp → BitVec 8
  | .init => 0
  | .deinit => 1
  | .getDevInfo => 2
  | .getCid => 3
  | .getWriteProtBits => 4
  | .getSectors => 5
  | .readSectors => 6
  | .writeSectors => 7

/-- The HR word (R86). -/
def hostWord (op : HostOp) (devNum : BitVec 8) (count : BitVec 16) (sect : Word) : BitVec 64 :=
  op.code ++ devNum ++ count ++ sect

/-- The PO word (R88). -/
def primWord (op : BitVec 8) (operand : Word) : BitVec 40 := op ++ operand

/-- The CD word (R90). -/
def Descriptor.word (d : Descriptor) : BitVec 48 :=
  0#3 ++ d.rk.code ++ d.dir.code ++ 0#2 ++ d.index ++ d.arg

/-- `rca << 16` (R99). -/
def rcaArg (rca : BitVec 16) : Word := rca ++ 0#16

/-- The OP_COND argument: `hcs` in bit 30, the voltage window in bits 23:8 (R95, R96). -/
def opCondArg (hcs : Bool) (vdd : BitVec 16) : Word := 0#1 ++ BitVec.ofBool hcs ++ 0#6 ++ vdd ++ 0#8

/-- The MMC SWITCH argument with access Write_Byte = 3 (R101). -/
def switchArg (index value : BitVec 8) : Word := 3#8 ++ index ++ value ++ 0#8

/-- The descriptors of the card commands (30_encoding.md R105, 41_card_commands.md R150 to R171). -/
def cdGoIdleState : Descriptor := ⟨.none, .none, 0, 0⟩
def cdSendIfCond : Descriptor := ⟨.r7, .none, 8, 0x1AA⟩
def cdAppCmd (rca : BitVec 16) : Descriptor := ⟨.r1, .none, 55, rcaArg rca⟩
def cdSdSendOpCond (hcs : Bool) (vdd : BitVec 16) : Descriptor := ⟨.r3, .none, 41, opCondArg hcs vdd⟩
def cdSendOpCond (vdd : BitVec 16) : Descriptor := ⟨.r3, .none, 1, opCondArg true vdd⟩
def cdAllSendCid : Descriptor := ⟨.r2, .none, 2, 0⟩
def cdSendRelativeAddr : Descriptor := ⟨.r6, .none, 3, 0⟩
def cdSetRelativeAddr (rca : BitVec 16) : Descriptor := ⟨.r1, .none, 3, rcaArg rca⟩
def cdSendCsd (rca : BitVec 16) : Descriptor := ⟨.r2, .none, 9, rcaArg rca⟩
def cdSelectCard (rca : BitVec 16) : Descriptor := ⟨.r1b, .none, 7, rcaArg rca⟩
def cdSendExtCsd : Descriptor := ⟨.r1, .read, 8, 0⟩
def cdSwitchFunc : Descriptor := ⟨.r1, .read, 6, 0x80FFFFF1⟩
def cdSwitch (index value : BitVec 8) : Descriptor := ⟨.r1b, .none, 6, switchArg index value⟩
def cdSendStatus (rca : BitVec 16) : Descriptor := ⟨.r1, .none, 13, rcaArg rca⟩
def cdSetClrCardDetect : Descriptor := ⟨.r1, .none, 42, 0⟩
def cdAcmdSetBusWidth : Descriptor := ⟨.r1, .none, 6, 2⟩
def cdReadSingleBlock (arg : Word) : Descriptor := ⟨.r1, .read, 17, arg⟩
def cdReadMultipleBlock (arg : Word) : Descriptor := ⟨.r1, .read, 18, arg⟩
def cdWriteBlock (arg : Word) : Descriptor := ⟨.r1, .write, 24, arg⟩
def cdWriteMultipleBlock (arg : Word) : Descriptor := ⟨.r1, .write, 25, arg⟩
def cdSetBlockCount (count : BitVec 16) : Descriptor := ⟨.r1, .none, 23, 0#16 ++ count⟩
def cdStopTransmission : Descriptor := ⟨.r1b, .none, 12, 0⟩

/-- A descriptor of APP_CMD (41_card_commands.md R152). -/
def Descriptor.isAppCmd (cd : Descriptor) : Bool := cd.index == 55 && cd.rk == .r1 && cd.dir == .none

/-- The encoder: the word of an operation, with the operands that its format keeps outside the word. Unused operands are written as 0. -/
def encode : Instr → OpWord
  | .init d c s => .hr (hostWord .init d c s) .null
  | .deinit d c s => .hr (hostWord .deinit d c s) .null
  | .getDevInfo d c s => .hr (hostWord .getDevInfo d c s) .null
  | .getCid d c s => .hr (hostWord .getCid d c s) .null
  | .getWriteProtBits d c s => .hr (hostWord .getWriteProtBits d c s) .null
  | .getSectors d c s => .hr (hostWord .getSectors d c s) .null
  | .readSectors d c s buf => .hr (hostWord .readSectors d c s) buf
  | .writeSectors d c s buf => .hr (hostWord .writeSectors d c s) buf
  | .issue p cd bc bs buf => .po (primWord 0x00 0) p ⟨cd.word, bc, bs, buf⟩
  | .setClock p hz => .po (primWord 0x01 hz) p IssueOperands.zero
  | .setBusWidth p w => .po (primWord 0x02 w) p IssueOperands.zero
  | .cardPresent p => .po (primWord 0x03 0) p IssueOperands.zero
  | .writeProtectPin p => .po (primWord 0x04 0) p IssueOperands.zero
  | .cmdResponseR1 => .po (primWord 0x05 0) .p0 IssueOperands.zero
  | .cmdResponseR1b => .po (primWord 0x06 0) .p0 IssueOperands.zero
  | .cmdResponseR2 => .po (primWord 0x07 0) .p0 IssueOperands.zero
  | .cmdResponseR3 => .po (primWord 0x08 0) .p0 IssueOperands.zero
  | .cmdResponseR6 => .po (primWord 0x09 0) .p0 IssueOperands.zero
  | .cmdResponseR7 => .po (primWord 0x0A 0) .p0 IssueOperands.zero
  | .ctlReset => .po (primWord 0x0B 0) .p0 IssueOperands.zero
  | .goIdleState => .cd cdGoIdleState.word
  | .sendIfCond => .cd cdSendIfCond.word
  | .appCmd rca => .cd (cdAppCmd rca).word
  | .sdSendOpCond hcs vdd => .cd (cdSdSendOpCond hcs vdd).word
  | .sendOpCond vdd => .cd (cdSendOpCond vdd).word
  | .allSendCid => .cd cdAllSendCid.word
  | .sendRelativeAddr => .cd cdSendRelativeAddr.word
  | .setRelativeAddr rca => .cd (cdSetRelativeAddr rca).word
  | .sendCsd rca => .cd (cdSendCsd rca).word
  | .selectCard rca => .cd (cdSelectCard rca).word
  | .sendExtCsd => .cd cdSendExtCsd.word
  | .switchFunc => .cd cdSwitchFunc.word
  | .switch index value => .cd (cdSwitch index value).word
  | .sendStatus rca => .cd (cdSendStatus rca).word
  | .setClrCardDetect => .cd cdSetClrCardDetect.word
  | .acmdSetBusWidth => .cd cdAcmdSetBusWidth.word
  | .readSingleBlock arg => .cd (cdReadSingleBlock arg).word
  | .readMultipleBlock arg => .cd (cdReadMultipleBlock arg).word
  | .writeBlock arg => .cd (cdWriteBlock arg).word
  | .writeMultipleBlock arg => .cd (cdWriteMultipleBlock arg).word
  | .setBlockCount count => .cd (cdSetBlockCount count).word
  | .stopTransmission => .cd cdStopTransmission.word

end Sys2Proof
end

