-- ==== Sys2Proof/Config.lean ====
section
/-! DEFINITION. What an implementation fixes (00_scope.md R6, R7), the answers of the environment agents, and the free values. -/

namespace Sys2Proof

/-- The parameters that the document leaves to the implementation (00_scope.md R7, 92_eei_decisions.md), held in the state so that every
statement ranges over them; no step writes them. -/
structure Config where
  /-- `SWITCH_STATUS_SIZE`, bytes of the SWITCH_FUNC status block. -/
  switchStatusSize : BitVec 16
  /-- `CLK_HS_HZ`, the high-speed clock. -/
  clkHsHz : Word
  /-- Bits 23:8 of `HOST_VDD_MASK`; the mask has no other bit (30_encoding.md R95). -/
  vddWindow : BitVec 16
  /-- `MMC_RCA`, the address that the host assigns to an MMC. -/
  mmcRca : BitVec 16
  /-- `READ_CRC_RETRIES`. -/
  readCrcRetries : Nat
  /-- `USE_CMD23`. -/
  useCmd23 : Bool
  /-- `CTRL_SUSTAINS_DEFAULT_CLOCK`. -/
  sustainsDefaultClock : Bool
  /-- `HAS_IRQ`. -/
  hasIrq : Bool
  /-- `ADDR_BITS`, the pointer width of the platform (20_memory.md R61, R73). -/
  addrBits : Nat
  /-- `DMA_BASE`, OPEN: where the null-buffer path moves its data (20_memory.md R63). -/
  dmaBase : Nat
deriving DecidableEq, Repr, Inhabited

namespace Config

/-! ### Sizes and clocks that no implementation chooses (00_scope.md R6, 10_state.md R36) -/

/-- `BLOCK_SIZE`, 512 bytes. -/
def blockSize : BitVec 16 := 512

/-- `CLK_IDENT_HZ`, 400 kHz. -/
def clkIdentHz : Word := 400000

/-- `CLK_DEFAULT_HZ`, 25 MHz. -/
def clkDefaultHz : Word := 25000000

/-- Bytes of `seq.scratch` (10_state.md R36). -/
def scratchBytes : Nat := 512

/-! ### OPEN parameters: constants without a value -/

/-- `DMA_BASE` of the machine right after reset: OPEN (20_memory.md R63). -/
opaque openDmaBase : Nat

/-- What the clock divider makes of a requested frequency, before the law of `clkActual`: OPEN (40_controller_primitive.md R131). -/
opaque divider : Word → Word

/-- `clk_actual(hz) ≤ hz` (00_scope.md R7): the frequency that the bus really runs at. -/
def clkActual (hz : Word) : Word := if divider hz ≤ hz then divider hz else hz

/-- Bytes of host memory on a platform with these parameters (20_memory.md R61). -/
def memBytes (c : Config) : Nat := 2 ^ c.addrBits

/-- The defaults of 00_scope.md R7 and 20_memory.md R61. -/
def defaults : Config where
  switchStatusSize := 64
  clkHsHz := 50000000
  vddWindow := 0x3000
  mmcRca := 1
  readCrcRetries := 3
  useCmd23 := false
  sustainsDefaultClock := true
  hasIrq := true
  addrBits := 32
  dmaBase := openDmaBase

end Config

/-! ### The answers of the environment agents -/

/-- What CARD (or the controller) answers in phase 4 of `issue` (40_controller_primitive.md R124). -/
inductive CardAnswer where
  /-- A response frame with good CRC. A one-word kind takes the first word only. -/
  | good (r : Words4)
  /-- No response within `RESP_TIMEOUT`. -/
  | silent
  /-- A response whose CRC does not match. -/
  | badCrc
  /-- The controller reports failure without an indicator. -/
  | ctlFail
deriving DecidableEq, Repr, Inhabited

/-- What happens to one block in phase 5 of `issue` (R125): its bytes are what CARD delivers on a read. -/
inductive BlockAnswer where
  | good (bytes : List Byte)
  | crcError
  | timeout
  | fail
deriving DecidableEq, Repr, Inhabited

/-- How the busy wait of phase 6 ends (R126). -/
inductive BusyAnswer where
  | released
  | timeout
deriving DecidableEq, Repr, Inhabited

namespace Config

/-! ### Free values

Each is a constant without a body, taken at the draw counter of the state: nothing in Lean can evaluate it, so what is proved holds for
every value of it (00_scope.md R10, `draw x`). -/

/-- The answer of CARD where no answer is scripted. -/
opaque freeAnswer : Nat → CardAnswer

/-- The fate of a block where none is scripted. -/
opaque freeBlock : Nat → BlockAnswer

/-- The end of a busy wait where none is scripted. -/
opaque freeBusy : Nat → BusyAnswer

/-- How often TIMER answers that a loop's budget has not expired, where no number is scripted: some natural number, so that every loop ends
(60_exceptions.md R311, R312). -/
opaque freeBudget : Nat → Nat

/-- An unspecified value of any register type: `draw` tells one occasion from another, `item` one register from another. -/
opaque unspecified (α : Type) [Inhabited α] (draw item : Nat) : α

end Config

end Sys2Proof
end

