-- ==== Sys2Proof/Machine/State.lean ====
section
/-! DEFINITION. The state of the block (10_state.md R20), as plain data, the reasons a step can stop, and the state right after reset. -/

namespace Sys2Proof.Machine

open Sys2Proof

/-! ### Enumerations -/

/-- The kind of a slot (10_state.md R22). -/
inductive Kind where
  | absent | mmc | mmchc | sdsc | sdhc | sduc
deriving DecidableEq, Repr, Inhabited

/-- How a card is addressed (10_state.md R30). -/
inductive Addressing where
  | byte | block
deriving DecidableEq, Repr, Inhabited

/-- The transport status of the last `issue` (10_state.md R42). -/
inductive TStatus where
  | ok | timeout | crc | fail
deriving DecidableEq, Repr, Inhabited

/-- The error codes (60_exceptions.md R291), in the order of their values. -/
inductive ErrorCode where
  | none | invalParam | initialized | goIdleState | sendIfCond | ifCondResp | sendOpCond | opCondTmout | voltSupport | allSendCid
  | setSendRca | sendCsd | selectCard | locked | sendExtCsd | switchHs | setClrCd | setBusWidth | sendStatus | cardStatus | noCard
  | sectRw | writeProt
deriving DecidableEq, Repr, Inhabited

/-- The step labels, the block's program counter (10_state.md R35). -/
inductive Label where
  | idle | q
  | iGuard | a1 | a2 | a3 | bSd | bMmc | bDone | c1 | c2 | d1 | e1 | f1 | gHs | gCd | gBw | commit | fail
  | tGuard | tPre | tData | tStop | tRecover | tStatus
deriving DecidableEq, Repr, Inhabited

/-- The target of the data engine (10_state.md R45): `internal` is the window at `DMA_BASE` with the INTERNAL tag
(40_controller_primitive.md R139). -/
inductive Path where
  | buffer (a : Nat)
  | internal (a : Nat)
  | scratch
deriving DecidableEq, Repr, Inhabited

/-! ### Records -/

/-- One device slot: the nine attributes (10_state.md R22 to R30). -/
structure Slot where
  kind : Kind
  writeProtect : BitVec 8
  rca : BitVec 16
  sectorCount : Word
  clockHz : Word
  cid : Words4
  ccc : BitVec 12
  busWidth : BitVec 3
  addressing : Addressing
deriving DecidableEq, Repr, Inhabited

/-- An absent slot: all fields zeroed (10_state.md R31). -/
def Slot.zero : Slot where
  kind := .absent
  writeProtect := 0
  rca := 0
  sectorCount := 0
  clockHz := 0
  cid := Words4.zero
  ccc := 0
  busWidth := 0
  addressing := .byte

/-- A host request: the fields of the HR word (30_encoding.md R86) and the buffer operand beside it. -/
structure Request where
  op : HostOp
  devNum : BitVec 8
  count : BitVec 16
  sect : Word
  buf : HostBuf
deriving DecidableEq, Repr, Inhabited

/-- The sequencer's temporaries (10_state.md R37). -/
structure Temps where
  sd2 : Bool
  legacyProbe : Bool
  mmc : Bool
  ocr : Word
  csd : BitVec 128
  hsCap : Bool
  retry : Nat
  err : ErrorCode
  arg : Word
deriving DecidableEq, Repr, Inhabited

/-- Bytes at addresses, listed in one canonical form: addresses strictly rising, no byte listed that reads as an unlisted one does. -/
abbrev Memory := List Host.Cell

/-- The sequencer (10_state.md R33 to R37). -/
structure Sequencer where
  busy : Bool
  op : Request
  cur : Port
  pc : Label
  /-- The working slot `seq.w`. -/
  w : Slot
  /-- `seq.scratch`, bytes at offsets 0 to 511. -/
  scratch : Memory
  tmp : Temps
  /-- The MODEL's own bit: CMD12 of this T_RECOVER entry is sent (45_block_transfer.md R262), so the step is an iteration of its loop. -/
  polling : Bool
deriving DecidableEq, Repr, Inhabited

/-- The controller (10_state.md R38 to R44). -/
structure Controller where
  sel : Port
  clk : Pair Word
  width : Pair (BitVec 3)
  /-- `clk[p]` has been programmed since power-on or `ctl_reset` (40_controller_primitive.md R121). -/
  clkSet : Pair Bool
  /-- `width[p]` has been programmed since power-on or `ctl_reset` (R121). -/
  widthSet : Pair Bool
  resp : Words4
  /-- The kind of the response that `resp` holds; `none` when the words are unspecified (R41, R136). -/
  respKind : RespKind
  tstatus : TStatus
  irqPending : Bool
  busy : Bool
deriving DecidableEq, Repr, Inhabited

/-- The data engine (10_state.md R45). -/
structure Engine where
  armed : Bool
  dir : Dir
  blocksLeft : BitVec 16
  blockSize : BitVec 16
  path : Path
  cursor : Word
deriving DecidableEq, Repr, Inhabited

/-- The pins (10_state.md R46). -/
structure Pins where
  present : Pair Bool
  wp : Pair Bool
deriving DecidableEq, Repr, Inhabited

/-- What a host request returns: a status, the byte of `getWriteProtBits` or the word of `getSectors` (30_encoding.md R87). -/
inductive Result where
  | status (e : ErrorCode)
  | byte (b : Byte)
  | word (w : Word)
deriving DecidableEq, Repr, Inhabited

/-- The events of the history (10_state.md R50). `resp` lists the response words that are specified. -/
inductive Event where
  | setClock (p : Port) (hz : Word)
  | setWidth (p : Port) (w : BitVec 3)
  | present (p : Port) (v : Bool)
  | wpPin (p : Port) (v : Bool)
  | arm (dir : Dir) (count size : BitVec 16) (path : Path)
  | cmd (p : Port) (cd : Descriptor)
  | resp (st : TStatus) (words : List Word)
  | blockIn (i : Nat) (bytes : List Byte)
  | blockOut (i : Nat) (bytes : List Byte)
  | irq
  | ack
  | ctlReset
  | ret (op : HostOp) (r : Result)
deriving DecidableEq, Repr, Inhabited

/-- What a primitive operation returns to its caller (30_encoding.md R88). -/
inductive PrimResult where
  | none
  | bit (v : Bool)
  | word (w : Word)
  | long (w : BitVec 128)
  | issued (st : TStatus) (resp : Words4)
deriving DecidableEq, Repr, Inhabited

/-- The host's side of a return: the value returned, and the output operands of `getDevInfo` and `getCid` (30_encoding.md R86). -/
structure HostSide where
  result : Option Result
  devInfo : Slot
  cid : Words4
deriving DecidableEq, Repr, Inhabited

/-- The scripted answers of the environment agents, used in order; where a list is empty the answer is a free value taken at `draws`. -/
structure Env where
  answers : List CardAnswer
  blocks : List BlockAnswer
  busy : List BusyAnswer
  /-- TIMER, one entry per instance of a polling loop: how often it says that the budget has not expired (60_exceptions.md R312). -/
  timer : List Nat
  /-- How often TIMER still says so in the loop that runs; `none` before the loop's first question. -/
  budget : Option Nat
  /-- Levels that PINS drives from the next pin reads on; empty: the levels stay as they are. -/
  pins : List Pins
  draws : Nat
deriving DecidableEq, Repr, Inhabited

/-- The state of the block. -/
structure State where
  slot : Pair Slot
  seq : Sequencer
  ctl : Controller
  de : Engine
  pin : Pins
  /-- The event history `H`, oldest first. -/
  hist : List Event
  /-- Host memory. Only the data engine's steps write it; what HOST stores there between requests comes from outside the machine
  (notes/assumptions/29.md, DESIGN CHOICE). -/
  mem : Memory
  host : HostSide
  prim : PrimResult
  env : Env
  cfg : Config
  /-- The operation word presented at one of the three interfaces, if any. -/
  fetch : Option OpWord
deriving DecidableEq, Repr

/-! ### Why a step stops -/

/-- Model faults. -/
inductive Fault where
  /-- Raised by the sequencer when `seq.busy` = 1 and `seq.pc` = IDLE, which 10_state.md R34 excludes; no run from reset reaches it. Safe:
  the model stops where the spec gives no step. -/
  | sequencerStuck
deriving DecidableEq, Repr

/-- Refusals: broken contracts of a caller, for which the spec gives no meaning (00_scope.md R11, 93_implementation_defined.md). All are
safe: the model stops, and nothing is concluded about the hardware. -/
inductive Refusal where
  /-- An instruction without a meaning; raised by no arm of `exec`. -/
  | notModelled (mnemonic : String)
  /-- Raised by `step`: an HR `op` of 8 or more (30_encoding.md R107). -/
  | noHostOp (op : Nat)
  /-- Raised by `step`: a PO `op` of 0x0C or more (R107). -/
  | noPrimOp (op : Nat)
  /-- Raised by `step`: a CD word with `rk` = 7, `dir` = 3 or a reserved bit (R107, U12). -/
  | notDescriptor
  /-- Raised by `step`: a CD word that is no row of R105, or the word of an application command that follows no CMD55 (R104, R106, R107,
  U13). -/
  | unlistedCommand
  /-- Raised by every host request while `seq.busy` = 1 (20_memory.md R75, U8). -/
  | reentrantRequest
  /-- Raised by primitive operations and sequencer steps while `ctl.busy` = 1 (40_controller_primitive.md R120, R130). -/
  | controllerBusy
  /-- Raised by primitive operations on a port whose slot is absent and that `init` is not running on (R138, U26); `card_present` is allowed
  as the first act of `init` too (60_exceptions.md R305). -/
  | portClosed
  /-- Raised by `issue` on a port whose clock or width is unspecified (R121). -/
  | portUnprogrammed
  /-- Raised by `set_clock(p, 0)` (R131, U11). -/
  | clockZero
  /-- Raised by `set_bus_width(p, w)` with `w` other than 1 and 4 (R132, U11). -/
  | widthIllegal
  /-- Raised by `issue` with a data direction and a block count or block size of 0 (R120, U12). -/
  | emptyTransfer
  /-- Raised by `issue` and by a transfer request for a buffer that is not word-aligned (20_memory.md R65, U9). -/
  | bufferMisaligned
  /-- Raised by `issue` and by a transfer request for a buffer range that leaves host memory (20_memory.md R62, U9). -/
  | bufferRange
  /-- Raised by `issue` for a transfer longer than the 512 bytes of the scratch (10_state.md R36, 20_memory.md R66). -/
  | scratchRange
deriving DecidableEq, Repr

/-! ### Reset -/

/-- The zero request: what `seq.op` holds before the first one. -/
def Request.zero : Request := ⟨.init, 0, 0, 0, .null⟩

/-- Temporaries of zeros. -/
def Temps.zero : Temps := ⟨false, false, false, 0, 0, false, 0, .none, 0⟩

/-- The machine right after power-on (10_state.md R52): both slots absent, the sequencer idle, no interrupt, the engine disarmed, an empty
history. Registers that R52 leaves unspecified hold the values named in the assumption log. -/
def State.reset : State where
  slot := ⟨Slot.zero, Slot.zero⟩
  seq := ⟨false, Request.zero, .p0, .idle, Slot.zero, [], Temps.zero, false⟩
  ctl := ⟨.p0, ⟨0, 0⟩, ⟨0, 0⟩, ⟨false, false⟩, ⟨false, false⟩, Words4.zero, .none, .fail, false, false⟩
  de := ⟨false, .none, 0, 0, .buffer 0, 0⟩
  pin := ⟨⟨false, false⟩, ⟨false, false⟩⟩
  hist := []
  mem := []
  host := ⟨none, Slot.zero, Words4.zero⟩
  prim := .none
  env := ⟨[], [], [], [], none, [], 0⟩
  cfg := Config.defaults
  fetch := none

end Sys2Proof.Machine
end

