-- ==== Sys2Proof/WellFormed.lean ====
section
/-! DEFINITION. The operand checks that the spec puts on the caller (30_encoding.md R107, 20_memory.md R62, R65): a Bool per instruction. -/

namespace Sys2Proof

/-- A non-null buffer of `n` bytes is word-aligned, and it is an address of the platform whose range lies inside host memory (20_memory.md
R61, R62, R65). -/
def Config.bufferOk (cfg : Config) (a n : Nat) : Bool :=
  a % 4 == 0 && decide (a < cfg.memBytes) && decide (a + n ≤ cfg.memBytes)

/-- The buffer of a transfer request; the null buffer is checked against `DMA_BASE` when the request runs. -/
def HostBuf.wf (buf : HostBuf) (n : Nat) (cfg : Config) : Bool :=
  match buf with
  | .null => true
  | .addr a => cfg.bufferOk a n

/-- The buffer of an `issue` that moves `n` bytes. -/
def PrimBuf.wf (buf : PrimBuf) (n : Nat) (cfg : Config) : Bool :=
  match buf with
  | .null => true
  | .addr a => cfg.bufferOk a n
  | .scratch => decide (n ≤ Config.scratchBytes)

/-- The buffer of an `issue` that moves nothing: an address is held to the contract all the same (40_controller_primitive.md R120), but
block count and block size are ignored (30_encoding.md R89). -/
def PrimBuf.wfUnused (buf : PrimBuf) (cfg : Config) : Bool :=
  match buf with
  | .null => true
  | .addr a => cfg.bufferOk a 0
  | .scratch => true

/-- The caller's contract on an operation's operands, on a platform with the parameters `cfg`. -/
def Instr.wf (cfg : Config) : Instr → Bool
  | .readSectors _ count _ buf => buf.wf (count.toNat * 512) cfg
  | .writeSectors _ count _ buf => buf.wf (count.toNat * 512) cfg
  | .issue _ cd bc bs buf =>
    if cd.dir = .none then buf.wfUnused cfg else bc != 0 && bs != 0 && buf.wf (bc.toNat * bs.toNat) cfg
  | .setClock _ hz => hz != 0
  | .setBusWidth _ w => w == 1 || w == 4
  | .init _ _ _ | .deinit _ _ _ | .getDevInfo _ _ _ | .getCid _ _ _ | .getWriteProtBits _ _ _ | .getSectors _ _ _
  | .cardPresent _ | .writeProtectPin _ | .cmdResponseR1 | .cmdResponseR1b | .cmdResponseR2 | .cmdResponseR3 | .cmdResponseR6
  | .cmdResponseR7 | .ctlReset | .goIdleState | .sendIfCond | .appCmd _ | .sdSendOpCond _ _ | .sendOpCond _ | .allSendCid
  | .sendRelativeAddr | .setRelativeAddr _ | .sendCsd _ | .selectCard _ | .sendExtCsd | .switchFunc | .switch _ _
  | .sendStatus _ | .setClrCardDetect | .acmdSetBusWidth | .readSingleBlock _ | .readMultipleBlock _ | .writeBlock _
  | .writeMultipleBlock _ | .setBlockCount _ | .stopTransmission => true

/-- An instruction is well formed on a platform when its check answers true. -/
abbrev Instr.WellFormed (cfg : Config) (i : Instr) : Prop := i.wf cfg = true

end Sys2Proof
end

