-- ==== Sys2Proof/Machine/Operands.lean ====
section
/-! DEFINITION. Operands: device numbers, buffers and their ranges, the codes of the enumerations, and the host voltage mask. -/

namespace Sys2Proof.Machine

/-- The port of a device number; the valid ones are 0 and 1 (30_encoding.md R86, R107). -/
def portOf (devNum : BitVec 8) : Option Port :=
  match devNum.toNat with
  | 0 => some .p0
  | 1 => some .p1
  | _ => none

/-- The HR word of a request (30_encoding.md R86). -/
def Request.word (r : Request) : BitVec 64 := hostWord r.op r.devNum r.count r.sect

/-- The two transfer requests are told apart by `read` = (`op` = 6) (45_block_transfer.md, conventions). -/
def Request.isRead (r : Request) : Bool := r.op == .readSectors

/-- The start address of a request's buffer; a null buffer is the window at `DMA_BASE` (20_memory.md R63). -/
def bufferBase (buf : HostBuf) (cfg : Config) : Nat :=
  match buf with
  | .null => cfg.dmaBase
  | .addr a => a

/-- A request's buffer as the operand of `issue`. -/
def primBuf : HostBuf → PrimBuf
  | .null => .null
  | .addr a => .addr a

/-- The target that `issue` arms the engine with (40_controller_primitive.md R122). -/
def pathOf (buf : PrimBuf) (cfg : Config) : Path :=
  match buf with
  | .null => .internal cfg.dmaBase
  | .addr a => .buffer a
  | .scratch => .scratch

/-- The contract on a window of `n` bytes of host memory: word-aligned (20_memory.md R65), an address of `ADDR_BITS` bits (R61), inside the
address space (R62). -/
def rangeRefusal (a n : Nat) (cfg : Config) : Option Refusal :=
  if a % 4 ≠ 0 then some .bufferMisaligned
  else if cfg.memBytes ≤ a ∨ cfg.memBytes < a + n then some .bufferRange
  else none

/-- The contract on the buffer of an `issue` that moves `n` bytes. -/
def bufferRefusal (buf : PrimBuf) (n : Nat) (cfg : Config) : Option Refusal :=
  match buf with
  | .null => rangeRefusal cfg.dmaBase n cfg
  | .addr a => rangeRefusal a n cfg
  | .scratch => if n ≤ Config.scratchBytes then none else some .scratchRange

/-- The contract on a buffer that no data command uses: an address is held to it all the same (40_controller_primitive.md R120), but
nothing lies behind it, block count and block size being ignored (30_encoding.md R89). -/
def unusedBufferRefusal (buf : PrimBuf) (cfg : Config) : Option Refusal :=
  match buf with
  | .null => none
  | .addr a => rangeRefusal a 0 cfg
  | .scratch => none

/-- `HOST_VDD_MASK` (00_scope.md R7): bits 23:8 hold the voltage window, all others are 0 (30_encoding.md R95). -/
def vddMask (cfg : Config) : Word := opCondArg false cfg.vddWindow

/-- Numeric code of a kind (10_state.md R22). -/
def Kind.code : Kind → BitVec 3
  | .absent => 0
  | .mmc => 1
  | .mmchc => 2
  | .sdsc => 3
  | .sdhc => 4
  | .sduc => 5

/-- `is_mmc` (10_state.md R22). -/
def Kind.isMmc : Kind → Bool
  | .mmc | .mmchc => true
  | .absent | .sdsc | .sdhc | .sduc => false

/-- `is_sd` (10_state.md R22). -/
def Kind.isSd : Kind → Bool
  | .sdsc | .sdhc | .sduc => true
  | .absent | .mmc | .mmchc => false

/-- How the cards of a kind are addressed (10_state.md R30). -/
def Kind.addressing : Kind → Addressing
  | .mmchc | .sdhc | .sduc => .block
  | .absent | .mmc | .sdsc => .byte

/-- Numeric code of an addressing mode (10_state.md R30). -/
def Addressing.code : Addressing → BitVec 1
  | .byte => 0
  | .block => 1

/-- Value of an error code (60_exceptions.md R291). -/
def ErrorCode.code : ErrorCode → Nat
  | .none => 0
  | .invalParam => 1
  | .initialized => 2
  | .goIdleState => 3
  | .sendIfCond => 4
  | .ifCondResp => 5
  | .sendOpCond => 6
  | .opCondTmout => 7
  | .voltSupport => 8
  | .allSendCid => 9
  | .setSendRca => 10
  | .sendCsd => 11
  | .selectCard => 12
  | .locked => 13
  | .sendExtCsd => 14
  | .switchHs => 15
  | .setClrCd => 16
  | .setBusWidth => 17
  | .sendStatus => 18
  | .cardStatus => 19
  | .noCard => 20
  | .sectRw => 21
  | .writeProt => 22

/-- The three bits of `writeProtect` (10_state.md R23). -/
def wpBits (slider temp perm : Bool) : BitVec 8 :=
  0#5 ++ BitVec.ofBool perm ++ BitVec.ofBool temp ++ BitVec.ofBool slider

end Sys2Proof.Machine
end

