-- ==== Sys2Proof/Machine/Flags.lean ====
section
/-! DEFINITION. The response parser (42_response_parser.md): pure functions from response words and data blocks to the values that the
sequencer tests, and the block's arithmetic (R193). -/

namespace Sys2Proof.Machine

/-! ### Card status (R1, R1B) -/

/-- `CARD_STATUS_ERROR_MASK`, the eight error bits of 42_response_parser.md R177. -/
def cardStatusErrorMask : Word := 0x64F80000

/-- The record of `parse_r1` (R177). -/
structure CardStatus where
  err : Word
  locked : Bool
  swerr : Bool
  state : BitVec 4
deriving DecidableEq, Repr

/-- `parse_r1` (R177). -/
def parseR1 (s : Word) : CardStatus where
  err := s &&& cardStatusErrorMask
  locked := s.getLsbD 25
  swerr := s.getLsbD 7
  state := s.extractLsb 12 9

/-- The current-state code of Transfer (R178). -/
def stateTran : BitVec 4 := 4

/-- `status_ok` (R191). -/
def statusOk (s : Word) : Bool := (parseR1 s).err == 0 && (parseR1 s).state == stateTran

/-- `switch_ok` (R191). -/
def switchOk (s : Word) : Bool := statusOk s && !(parseR1 s).swerr

/-! ### OCR (R3) -/

/-- The record of `parse_r3` (R179). -/
structure Ocr where
  ready : Bool
  hc : Bool
  mmcSector : Bool
  voltOk : Bool
deriving DecidableEq, Repr

/-- `parse_r3` against a host voltage mask (R179). -/
def parseR3 (mask o : Word) : Ocr where
  ready := o.getLsbD 31
  hc := o.getLsbD 30
  mmcSector := o.getLsbD 30 && !o.getLsbD 29
  voltOk := o &&& mask != 0

/-! ### R6, R7, CID -/

/-- `parse_r6` (R181): the published RCA. -/
def parseR6 (x : Word) : BitVec 16 := x.extractLsb 31 16

/-- `parse_r7` (R182): the echo matches iff bits 11:0 are 0x1AA. -/
def echoMatches (x : Word) : Bool := x.extractLsb 11 0 == (0x1AA : BitVec 12)

/-- `parse_cid` (R183): the four words of `r2 >> 8`. -/
def parseCid (r : Words4) : Words4 where
  w0 := (r.w0 >>> 8) ||| ((r.w1 <<< 24) &&& 0xFF000000)
  w1 := (r.w1 >>> 8) ||| ((r.w2 <<< 24) &&& 0xFF000000)
  w2 := (r.w2 >>> 8) ||| ((r.w3 <<< 24) &&& 0xFF000000)
  w3 := r.w3 >>> 8

/-! ### CSD -/

/-- The fields of `parse_csd` (R184). -/
structure Csd where
  layout : BitVec 2
  ccc : BitVec 12
  readBlLen : BitVec 4
  cSizeV1 : BitVec 12
  cSizeMult : BitVec 3
  cSizeV2 : BitVec 22
  permWp : Bool
  tmpWp : Bool
deriving DecidableEq, Repr

/-- `parse_csd` (R184). -/
def parseCsd (csd : BitVec 128) : Csd where
  layout := csd.extractLsb 127 126
  ccc := csd.extractLsb 95 84
  readBlLen := csd.extractLsb 83 80
  cSizeV1 := csd.extractLsb 73 62
  cSizeMult := csd.extractLsb 49 47
  cSizeV2 := csd.extractLsb 69 48
  permWp := csd.getLsbD 13
  tmpWp := csd.getLsbD 12

/-- Capacity in sectors, CSD version 1 layout, exact (R185). -/
def sectorsV1 (f : Csd) : Nat :=
  (f.cSizeV1.toNat + 1) * 2 ^ (f.cSizeMult.toNat + 2) * 2 ^ f.readBlLen.toNat / 512

/-- Capacity in sectors, CSD version 2 layout, exact (R186). -/
def sectorsV2 (f : Csd) : Nat := (f.cSizeV2.toNat + 1) * 1024

/-- Capacity by path and layout (R187); `none` for an SD layout without a formula. -/
def csdSectors (f : Csd) (mmcPath : Bool) : Option Nat :=
  if mmcPath || f.layout == 0 then some (sectorsV1 f)
  else if f.layout == 1 then some (sectorsV2 f)
  else none

/-- The capacity that `init` stores, or `none` for an unusable CSD (43_init_sequence.md R216): no formula, 2^32 sectors or more, or no
sector at all on the SD path. -/
def usableSectors (f : Csd) (mmcPath : Bool) : Option Word :=
  match csdSectors f mmcPath with
  | none => none
  | some n => if 2 ^ 32 ≤ n ∨ (mmcPath = false ∧ n = 0) then none else some (BitVec.ofNat 32 n)

/-! ### Data blocks -/

/-- `LE32(b, k)` of four bytes, least significant first (00_scope.md R9). -/
def le32 (b0 b1 b2 b3 : Byte) : Word := b3 ++ b2 ++ b1 ++ b0

end Sys2Proof.Machine
end

