-- ==== Sys2Proof/Machine/Ops.lean ====
section
/-! DEFINITION. The shared operations: memory, the environment's answers, the controller primitive (40_controller_primitive.md), the
return of a request, and the failure paths (60_exceptions.md R299 to R301), which are this block's exceptions. -/

namespace Sys2Proof.Machine

/-- The outcome of a step. -/
abbrev Step := Host.Outcome State Fault Refusal

/-- Go on with `f` after a step that gave a next state. -/
def andThen (r : Step) (f : State → Step) : Step :=
  match r with
  | .next s => f s
  | .fault e => .fault e
  | .refused e => .refused e

/-! ### Memory -/

/-- What an unlisted address reads as: DESIGN CHOICE, unsafe (the spec gives no contents; notes/assumptions/8.md). -/
def unlistedByte : Byte := 0

/-- The byte at an address. -/
def Memory.readByte : Memory → Nat → Byte
  | [], _ => unlistedByte
  | (k, b) :: m, a => if k = a then b else Memory.readByte m a

/-- The `n` bytes from address `a` on, ascending (`MemRead`, 00_scope.md R10). -/
def Memory.readBytes (m : Memory) (a n : Nat) : List Byte :=
  (List.range n).map fun k => m.readByte (a + k)

/-- The cells of the bytes at `a`, `a + 1`, ..., less those that an unlisted address reads as. -/
def cellsFrom : Nat → List Byte → Memory
  | _, [] => []
  | a, b :: bs => if b = unlistedByte then cellsFrom (a + 1) bs else (a, b) :: cellsFrom (a + 1) bs

/-- Store bytes from address `a` on, ascending (`MemWrite`, 00_scope.md R10), in the canonical form. -/
def Memory.writeBytes (m : Memory) (a : Nat) (bytes : List Byte) : Memory :=
  m.filter (fun c => c.1 < a) ++ cellsFrom a bytes ++ m.filter (fun c => a + bytes.length ≤ c.1)

/-- Addresses rise strictly from `lo` on, stay below `hi`, and no cell holds the unlisted byte. -/
def Memory.wfFrom (lo hi : Nat) : Memory → Bool
  | [] => true
  | (k, b) :: m => decide (lo ≤ k) && decide (k < hi) && b != unlistedByte && Memory.wfFrom (k + 1) hi m

/-- The canonical form of a memory of `size` bytes. -/
def Memory.wf (m : Memory) (size : Nat) : Bool := Memory.wfFrom 0 size m

/-! ### Small updates -/

/-- `H += e` (10_state.md R50). -/
def State.log (e : Event) (s : State) : State := { s with hist := s.hist ++ [e] }

/-- `seq.pc <- l`. -/
def State.goto (l : Label) (s : State) : State := { s with seq := { s.seq with pc := l } }

/-- Write the working slot (10_state.md R33). -/
def State.setW (w : Slot) (s : State) : State := { s with seq := { s.seq with w := w } }

/-- Write the temporaries (10_state.md R37). -/
def State.setTmp (t : Temps) (s : State) : State := { s with seq := { s.seq with tmp := t } }

/-- `slot[p] <- v`. -/
def State.setSlot (p : Port) (v : Slot) (s : State) : State := { s with slot := s.slot.set p v }

/-- Move on to the next occasion of a free value. -/
def State.bump (s : State) : State := { s with env := { s.env with draws := s.env.draws + 1 } }

/-- `n` free bytes. -/
def State.freeBytes (s : State) (n : Nat) : List Byte := (List.range n).map (Config.unspecified Byte s.env.draws)

/-! ### The environment's answers -/

/-- The next answer of CARD (20_memory.md R70). -/
def State.nextAnswer (s : State) : CardAnswer :=
  match s.env.answers with
  | a :: _ => a
  | [] => Config.freeAnswer s.env.draws

/-- The state after that answer is taken. -/
def State.dropAnswer (s : State) : State :=
  { s with env := { s.env with answers := s.env.answers.tail, draws := s.env.draws + 1 } }

/-- The fate of the next block (40_controller_primitive.md R125). -/
def State.nextBlock (s : State) : BlockAnswer :=
  match s.env.blocks with
  | b :: _ => b
  | [] => Config.freeBlock s.env.draws

/-- The state after that block. -/
def State.dropBlock (s : State) : State :=
  { s with env := { s.env with blocks := s.env.blocks.tail, draws := s.env.draws + 1 } }

/-- The end of the next busy wait (R126). -/
def State.nextBusy (s : State) : BusyAnswer :=
  match s.env.busy with
  | b :: _ => b
  | [] => Config.freeBusy s.env.draws

/-- The state after that wait. -/
def State.dropBusy (s : State) : State :=
  { s with env := { s.env with busy := s.env.busy.tail, draws := s.env.draws + 1 } }

/-- An instance of a polling loop starts: TIMER has answered nothing yet in it (60_exceptions.md R312). -/
def State.startLoop (s : State) : State := { s with env := { s.env with budget := none } }

/-- How often TIMER still answers "not expired" in the loop that runs. A loop that has asked nothing yet takes the next scripted number, or a
free one. -/
def State.budgetLeft (s : State) : Nat :=
  match s.env.budget with
  | some n => n
  | none =>
    match s.env.timer with
    | n :: _ => n
    | [] => Config.freeBudget s.env.draws

/-- TIMER's next answer (R312): expired once the number is used up, and from then on; every loop gets there (R311). -/
def State.expired (s : State) : Bool := s.budgetLeft == 0

/-- The state after that answer. -/
def State.dropTimer (s : State) : State :=
  { s with
    env :=
      { s.env with
        budget := some (s.budgetLeft - 1)
        timer := if s.env.budget.isNone then s.env.timer.tail else s.env.timer
        draws := s.env.draws + 1 } }

/-- PINS drives its next levels, if any. -/
def State.samplePins (s : State) : State :=
  match s.env.pins with
  | p :: rest => { s with pin := p, env := { s.env with pins := rest } }
  | [] => s

/-! ### The arbiter and the helpers (40_controller_primitive.md R130 to R137) -/

/-- `set_clock(p, hz)` (R131): it selects the port, and the other port keeps its setting (R135). -/
def setClockRun (p : Port) (hz : Word) (s : State) : State :=
  ({ s with ctl := { s.ctl with sel := p, clk := s.ctl.clk.set p hz, clkSet := s.ctl.clkSet.set p true } }).log (.setClock p hz)

/-- `set_bus_width(p, w)` (R132). -/
def setWidthRun (p : Port) (w : BitVec 3) (s : State) : State :=
  ({ s with ctl := { s.ctl with sel := p, width := s.ctl.width.set p w, widthSet := s.ctl.widthSet.set p true } }).log (.setWidth p w)

/-- The frequency in force on the bus (R121, R135). -/
def State.busClock (s : State) : Word := Config.clkActual (s.ctl.clk.get s.ctl.sel)

/-- The width in force on the bus (R121, R135). -/
def State.busWidth (s : State) : BitVec 3 := s.ctl.width.get s.ctl.sel

/-- The level of the presence pin that the next read of port `p` sees (R133). -/
def State.presentLevel (s : State) (p : Port) : Bool := s.samplePins.pin.present.get p

/-- `card_present(p)` (R133): a pure read, recorded in the history. -/
def presentRun (p : Port) (s : State) : State := s.samplePins.log (.present p (s.presentLevel p))

/-- The level of the slider that the next read of port `p` sees; port 1 has no slider and reads 0 (10_state.md R46). -/
def State.wpLevel (s : State) (p : Port) : Bool :=
  match p with
  | .p0 => s.samplePins.pin.wp.p0
  | .p1 => false

/-- `write_protect_pin(p)` (R134): a pure read, recorded in the history. -/
def wpPinRun (p : Port) (s : State) : State := s.samplePins.log (.wpPin p (s.wpLevel p))

/-- `ctl_reset()` (R137, 10_state.md R52): the named bits are cleared, every other register of the controller and of the engine becomes
unspecified, and no port counts as programmed. -/
def ctlResetRun (s : State) : State :=
  let n := s.env.draws
  (({ s with
      ctl :=
        { sel := Config.unspecified Port n 0
          clk := ⟨Config.unspecified Word n 0, Config.unspecified Word n 1⟩
          width := ⟨Config.unspecified (BitVec 3) n 0, Config.unspecified (BitVec 3) n 1⟩
          clkSet := ⟨false, false⟩
          widthSet := ⟨false, false⟩
          resp := Config.unspecified Words4 n 0
          respKind := .none
          tstatus := Config.unspecified TStatus n 0
          irqPending := false
          busy := false }
      de :=
        { armed := false
          dir := Config.unspecified Dir n 0
          blocksLeft := Config.unspecified (BitVec 16) n 0
          blockSize := Config.unspecified (BitVec 16) n 1
          path := Config.unspecified Path n 0
          cursor := Config.unspecified Word n 2 } }).bump).log .ctlReset

/-! ### Who may call the primitive (40_controller_primitive.md R138) -/

/-- `init` is between its guards and its return, on port `p` (60_exceptions.md R304). -/
def State.initRunningOn (s : State) (p : Port) : Bool :=
  s.seq.busy && s.seq.op.op == .init && s.seq.pc != .idle && s.seq.pc != .iGuard && s.seq.cur == p

/-- The slot of port `p` is initialized, or it is the one that `init` is running on (R138). -/
def State.portOpen (s : State) (p : Port) : Bool := (s.slot.get p).kind != .absent || s.initRunningOn p

/-- `init` stands before its first act on port `p` (60_exceptions.md R305). -/
def State.initOpening (s : State) (p : Port) : Bool :=
  s.seq.busy && s.seq.op.op == .init && s.seq.pc == .iGuard && portOf s.seq.op.devNum == some p

/-- The presence pin of port `p` may be asked for: the port is open, or the question is the first act of `init` (R138, R305). -/
def State.presenceOpen (s : State) (p : Port) : Bool := s.portOpen p || s.initOpening p

/-- The clock and the width of port `p` have been programmed (R121). -/
def State.programmed (s : State) (p : Port) : Bool := s.ctl.clkSet.get p && s.ctl.widthSet.get p

/-- `issue` may run on port `p`: the preconditions that do not concern its operands (R120, R121). -/
def State.ready (s : State) (p : Port) : Bool := !s.ctl.busy && s.portOpen p && s.programmed p

/-- The first precondition of `issue` that is broken, if any (R120, R121, 30_encoding.md R107). -/
def issueRefusal (p : Port) (cd : Descriptor) (bc bs : BitVec 16) (buf : PrimBuf) (s : State) : Option Refusal :=
  if s.ctl.busy then some .controllerBusy
  else if !s.portOpen p then some .portClosed
  else if !s.programmed p then some .portUnprogrammed
  else if cd.dir = .none then unusedBufferRefusal buf s.cfg
  else if bc = 0 ∨ bs = 0 then some .emptyTransfer
  else bufferRefusal buf (bc.toNat * bs.toNat) s.cfg

/-! ### `issue`: the seven phases (40_controller_primitive.md R120 to R127) -/

/-- Phase 1 (R121). -/
def beginIssue (p : Port) (s : State) : State := { s with ctl := { s.ctl with busy := true, sel := p } }

/-- Phase 2 (R122): the engine is armed before the command is dispatched; without data it is left disarmed. -/
def armEngine (dir : Dir) (bc bs : BitVec 16) (path : Path) (s : State) : State :=
  if dir = .none then s
  else
    ({ s with
        de :=
          { armed := true
            dir := dir
            blocksLeft := bc
            blockSize := bs
            path := path
            cursor := 0 } }).log (.arm dir bc bs path)

/-- The response registers take a response of kind `rk` (42_response_parser.md R176); words outside its shape are unspecified. -/
def setResp (rk : RespKind) (r : Words4) (s : State) : State :=
  let u := Config.unspecified Word s.env.draws
  let words : Words4 :=
    match rk with
    | .none => ⟨u 0, u 1, u 2, u 3⟩
    | .r2 => r
    | .r1 | .r1b | .r3 | .r6 | .r7 => ⟨r.w0, u 1, u 2, u 3⟩
  ({ s with ctl := { s.ctl with resp := words } }).bump

/-- What an answer of CARD makes of phase 4 (R124): `t` is the state in which the answer has been taken. A command without response cannot
time out or fail its CRC. -/
def receive (rk : RespKind) (a : CardAnswer) (t : State) : State × TStatus :=
  if rk = .none then (setResp rk Words4.zero t, if a = .ctlFail then .fail else .ok)
  else
    match a with
    | .good r => (setResp rk r t, .ok)
    | .silent => (t, .timeout)
    | .badCrc => (t, .crc)
    | .ctlFail => (t, .fail)

/-- Phase 4 (R124). -/
def responsePhase (rk : RespKind) (s : State) : State × TStatus := receive rk s.nextAnswer s.dropAnswer

/-- Store a block at the engine's cursor (20_memory.md R66). -/
def writeTarget (bytes : List Byte) (s : State) : State :=
  match s.de.path with
  | .buffer a => { s with mem := s.mem.writeBytes (a + s.de.cursor.toNat) bytes }
  | .internal a => { s with mem := s.mem.writeBytes (a + s.de.cursor.toNat) bytes }
  | .scratch => { s with seq := { s.seq with scratch := s.seq.scratch.writeBytes s.de.cursor.toNat bytes } }

/-- The block at the engine's cursor. -/
def readTarget (s : State) : List Byte :=
  match s.de.path with
  | .buffer a => s.mem.readBytes (a + s.de.cursor.toNat) s.de.blockSize.toNat
  | .internal a => s.mem.readBytes (a + s.de.cursor.toNat) s.de.blockSize.toNat
  | .scratch => s.seq.scratch.readBytes s.de.cursor.toNat s.de.blockSize.toNat

/-- The engine goes on to the next block. -/
def advanceEngine (s : State) : State :=
  { s with
    de :=
      { s.de with
        cursor := s.de.cursor + s.de.blockSize.setWidth 32
        blocksLeft := s.de.blocksLeft - 1 } }

/-- The `n` bytes of a delivered block: where the script lists fewer, the rest is free. -/
def fitBlock (s : State) (n : Nat) (bytes : List Byte) : List Byte := (bytes ++ s.freeBytes n).take n

/-- A read block that ends in a CRC error is not moved, but its bytes in the target are unspecified (R125). -/
def spoilBlock (s : State) : State :=
  if s.de.dir = .read then (writeTarget (s.freeBytes s.de.blockSize.toNat) s).bump else s

/-- One iteration of phase 5 (R125). A block that does not end well is not moved (R128(b)). -/
def moveBlock (bc : BitVec 16) (s : State) : State × TStatus :=
  let i := bc.toNat - s.de.blocksLeft.toNat
  let n := s.de.blockSize.toNat
  let t := s.dropBlock
  match s.nextBlock with
  | .good bytes =>
    if s.de.dir = .read then
      let blk := fitBlock t n bytes
      (advanceEngine ((writeTarget blk t.bump).log (.blockIn i blk)), .ok)
    else (advanceEngine (t.log (.blockOut i (readTarget t))), .ok)
  | .crcError => (spoilBlock t, .crc)
  | .timeout => (t, .timeout)
  | .fail => (t, .fail)

/-- Phase 5 (R125): up to `n` blocks, stopping at the first that does not move. -/
def moveBlocks (bc : BitVec 16) : Nat → State → State × TStatus
  | 0, s => (s, .ok)
  | n + 1, s =>
    let r : State × TStatus := moveBlock bc s
    if r.2 = .ok then moveBlocks bc n r.1 else r

/-- Phase 6 (R126). -/
def busyPhase (cd : Descriptor) (s : State) : State × TStatus :=
  if cd.rk = .r1b ∨ cd.dir = .write then
    (s.dropBusy, match s.nextBusy with
      | .released => .ok
      | .timeout => .timeout)
  else (s, .ok)

/-- The response words that are specified after an `issue` (10_state.md R41). -/
def specifiedWords (rk : RespKind) (st : TStatus) (r : Words4) : List Word :=
  if st = .ok then
    match rk with
    | .none => []
    | .r2 => [r.w0, r.w1, r.w2, r.w3]
    | .r1 | .r1b | .r3 | .r6 | .r7 => [r.w0]
  else []

/-- The completion interrupt, raised and acknowledged (R127, 60_exceptions.md R297). -/
def interruptCycle (s : State) : State :=
  if s.cfg.hasIrq then
    let raised := ({ s with ctl := { s.ctl with irqPending := true } }).log .irq
    ({ raised with ctl := { raised.ctl with irqPending := false } }).log .ack
  else s

/-- The response registers become unspecified (R127, R128(d)). -/
def forgetResp (s : State) : State :=
  ({ s with ctl := { s.ctl with resp := Config.unspecified Words4 s.env.draws 0 } }).bump

/-- Phase 7 (R127). -/
def completeIssue (rk : RespKind) (st : TStatus) (s : State) : State :=
  let t := interruptCycle s
  let u := if st = .ok then t else forgetResp t
  ({ u with
      ctl := { u.ctl with tstatus := st, respKind := if st = TStatus.ok then rk else RespKind.none, busy := false }
      de := { u.de with armed := false } }).log (.resp st (specifiedWords rk st u.ctl.resp))

/-- The state after phases 1 to 3 (R121 to R123). -/
def dispatched (p : Port) (cd : Descriptor) (bc bs : BitVec 16) (buf : PrimBuf) (s : State) : State :=
  (armEngine cd.dir bc bs (pathOf buf s.cfg) (beginIssue p s)).log (.cmd p cd)

/-- Phase 5 after phase 4 (R125): only for a command with data whose response phase went well. -/
def dataPhase (cd : Descriptor) (bc : BitVec 16) (r : State × TStatus) : State × TStatus :=
  if r.2 = .ok ∧ cd.dir ≠ .none then moveBlocks bc bc.toNat r.1 else r

/-- Phase 6 after phase 5 (R126): only if all went well so far. -/
def waitPhase (cd : Descriptor) (r : State × TStatus) : State × TStatus := if r.2 = .ok then busyPhase cd r.1 else r

/-- Phases 4 to 6 from a dispatched command: the state and the transport status that phase 7 records. -/
def answered (cd : Descriptor) (bc : BitVec 16) (s : State) : State × TStatus :=
  waitPhase cd (dataPhase cd bc (responsePhase cd.rk s))

/-- A whole `issue` whose preconditions hold. -/
def issueRun (p : Port) (cd : Descriptor) (bc bs : BitVec 16) (buf : PrimBuf) (s : State) : State :=
  let r := answered cd bc (dispatched p cd bc bs buf s)
  completeIssue cd.rk r.2 r.1

/-- `issue(p, CD, block_count, block_size, buffer)` (R120): one blocking call, refused where a precondition is broken. -/
def issue (p : Port) (cd : Descriptor) (bc bs : BitVec 16) (buf : PrimBuf) (s : State) : Step :=
  match issueRefusal p cd bc bs buf s with
  | some r => .refused r
  | none => .next (issueRun p cd bc bs buf s)

/-- A command without data. -/
def issueCommand (p : Port) (cd : Descriptor) (s : State) : Step := issue p cd 0 0 .null s

/-! ### Application commands (30_encoding.md R104) -/

/-- Whether the last command that a history records is a CMD55 on port `p` that was accepted, after one more event; `last` says it of the
history before that event. -/
def followsAppCmd (p : Port) (last : Bool) (e : Event) : Bool :=
  match e with
  | .cmd q cd => q == p && cd.isAppCmd
  | .resp st _ => last && st == .ok
  | .setClock _ _ | .setWidth _ _ | .present _ _ | .wpPin _ _ | .arm _ _ _ _ | .blockIn _ _ | .blockOut _ _ | .irq | .ack | .ctlReset
  | .ret _ _ => last

/-- The next command on port `p` immediately follows an accepted CMD55 (30_encoding.md R104, R106). The block has no register for this
(10_state.md R49): the history says it. -/
def State.appPending (s : State) (p : Port) : Bool := s.hist.foldl (followsAppCmd p) false

/-- The second command of an application command: it is sent only after an accepted CMD55 (30_encoding.md R104). -/
def afterAppCmd (p : Port) (cd : Descriptor) (t : State) : State :=
  if t.ctl.tstatus = .ok then issueRun p cd 0 0 .null t else t

/-- Both commands of an application command (30_encoding.md R104). -/
def acmdRun (p : Port) (rca : BitVec 16) (cd : Descriptor) (s : State) : State :=
  afterAppCmd p cd (issueRun p (cdAppCmd rca) 0 0 .null s)

/-- `ACMDn` without data (30_encoding.md R104); the preconditions of both commands are the same and are tested once. -/
def acmd (p : Port) (rca : BitVec 16) (cd : Descriptor) (s : State) : Step :=
  match issueRefusal p cd 0 0 .null s with
  | some r => .refused r
  | none => .next (acmdRun p rca cd s)

/-- The word of an application command on port `seq.cur`: after an accepted CMD55 it is the second command alone, else the operation is the
pair (30_encoding.md R104). -/
def appCommand (cd : Descriptor) (s : State) : Step :=
  if s.appPending s.seq.cur then issueCommand s.seq.cur cd s else acmd s.seq.cur s.seq.w.rca cd s

/-! ### The scratch (10_state.md R36) -/

/-- `parse_ext_csd`: SEC_COUNT (42_response_parser.md R189). -/
def extCsdSecCount (m : Memory) : Word := le32 (m.readByte 212) (m.readByte 213) (m.readByte 214) (m.readByte 215)

/-- `parse_ext_csd`: high-speed capability, CARD_TYPE bits 1:0 (42_response_parser.md R189). -/
def extCsdHsCap (m : Memory) : Bool := m.readByte 196 &&& 0x03 != 0

/-- `parse_switch_status`: high speed is selected (42_response_parser.md R190, 20_memory.md R64(c)). -/
def switchConfirmed (m : Memory) : Bool := m.readByte 16 &&& 0x0F == 1

/-- The contents of the scratch are unspecified after the step that parsed them (70_reset_and_hazards.md R350); a presented word
parses none (notes/assumptions/28.md). -/
def forgetScratch (s : State) : State :=
  ({ s with seq := { s.seq with scratch := s.seq.scratch.writeBytes 0 (s.freeBytes Config.scratchBytes) } }).bump

/-! ### Acceptance and return of a request -/

/-- Acceptance of a host request (43_init_sequence.md R200, 45_block_transfer.md R250). -/
def accept (r : Request) (l : Label) (s : State) : State :=
  { s with seq := { s.seq with busy := true, op := r, pc := l, polling := false } }

/-- `seq.busy <- 0; seq.pc <- IDLE; H += Ret(op, r); return r`. -/
def hostReturn (op : HostOp) (r : Result) (s : State) : State :=
  ({ s with
      seq := { s.seq with busy := false, pc := .idle }
      host := { s.host with result := some r } }).log (.ret op r)

/-- The working slot and the temporaries are unspecified outside the request that wrote them (10_state.md R37, 93 U14). -/
def forgetRequest (s : State) : State :=
  ({ s with
      seq :=
        { s.seq with
          w := Config.unspecified Slot s.env.draws 0
          tmp := Config.unspecified Temps s.env.draws 0
          polling := false } }).bump

/-! ### Taking an exception: the failure paths -/

/-- `fail(E)` (43_init_sequence.md R222): the code is kept and the failure path is the next step. -/
def State.raise (e : ErrorCode) (s : State) : State :=
  (s.setTmp { s.seq.tmp with err := e }).goto .fail

/-- Step 3 of the `init` failure path: the other port, if its slot is initialized, is programmed again from its slot
(60_exceptions.md R300). -/
def restorePort (o : Port) (s : State) : State :=
  if (s.slot.get o).kind = .absent then s
  else setWidthRun o (s.slot.get o).busWidth (setClockRun o (s.slot.get o).clockHz s)

/-- The `init` failure path (60_exceptions.md R300): the controller is reset, the slot is zeroed, the other port is restored and the first
error is returned. It cannot fail. -/
def initFailure (s : State) : State :=
  let d := s.seq.cur
  let t := restorePort d.other ((ctlResetRun s).setSlot d Slot.zero)
  hostReturn .init (.status s.seq.tmp.err) (forgetRequest t)

/-- The bytes of the buffer range of a failed read are unspecified (20_memory.md R79). -/
def forgetBuffer (s : State) : State :=
  ({ s with
      mem :=
        s.mem.writeBytes (bufferBase s.seq.op.buf s.cfg) (s.freeBytes (s.seq.op.count.toNat * 512)) }).bump

/-- The return of a transfer past its guards (60_exceptions.md R301): nothing but the return, except that a failed read leaves its buffer
range unspecified. -/
def transferReturn (e : ErrorCode) (s : State) : State :=
  let t := if e ≠ .none ∧ s.seq.op.isRead = true then forgetBuffer s else s
  hostReturn s.seq.op.op (.status e) (forgetRequest t)

/-! ### Presenting a word at an interface -/

/-- The sequencer is inside `init(0)`, at the label that dispatches its first command, with port 0 programmed by step A1
(43_init_sequence.md R203): a state in which the primitive may be called on port 0 (40_controller_primitive.md R138). -/
def State.openInterface (s : State) : State :=
  { s with
    seq := { s.seq with busy := true, op := ⟨.init, 0, 1, 0, .addr 0⟩, cur := .p0, pc := .a2 }
    ctl :=
      { s.ctl with
        clk := s.ctl.clk.set .p0 Config.clkIdentHz
        clkSet := s.ctl.clkSet.set .p0 true
        width := s.ctl.width.set .p0 1
        widthSet := s.ctl.widthSet.set .p0 true
        busy := false } }

/-- Open the primitive's interface if it is not open for port `p`. -/
def State.openFor (p : Port) (s : State) : State := if s.ready p then s else s.openInterface

/-- A card on port `seq.cur` has just accepted CMD55 (41_card_commands.md R152). -/
def State.acceptAppCmd (s : State) : State :=
  issueRun s.seq.cur (cdAppCmd s.seq.w.rca) 0 0 .null
    { s with env := { s.env with answers := .good ⟨0x120, 0, 0, 0⟩ :: s.env.answers } }

/-- What a CD word needs before it: an application command follows an accepted CMD55 (30_encoding.md R104). -/
def State.precede (w : BitVec 48) (s : State) : State :=
  if needsAppCmd w && !s.appPending s.seq.cur then s.acceptAppCmd else s

/-- Present a word of the opcode table at the interface of its format, the operands outside the word being zeros. -/
def State.presentWord (nbits w : Nat) (s : State) : State :=
  match nbits with
  | 64 => { s with fetch := some (.hr (BitVec.ofNat 64 w) .null) }
  | 40 => { s.openFor .p0 with fetch := some (.po (BitVec.ofNat 40 w) .p0 IssueOperands.zero) }
  | 48 => { (s.openFor s.seq.cur).precede (BitVec.ofNat 48 w) with fetch := some (.cd (BitVec.ofNat 48 w)) }
  | _ => { s with fetch := none }

/-- The refusal of a word that is no operation (30_encoding.md R107). -/
def refusalOf : DecodeError → Refusal
  | .noHostOp op => .noHostOp op
  | .noPrimOp op => .noPrimOp op
  | .notDescriptor => .notDescriptor
  | .unlistedCommand => .unlistedCommand

end Sys2Proof.Machine
end

