-- ==== Sys2Proof/Machine/CardCommands.lean ====
section
/-! DEFINITION. The meanings of the card commands (format CD, 41_card_commands.md): the `issue` call of each rule, on port `seq.cur`, and
what the rule takes from the response. What an unsuccessful command makes of the request is the issuing step's (`InitSequence`, `ModeTuning`,
`BlockTransfer`). What a presented word keeps in `seq.w` or the temporaries while no request runs stays there until something writes or
forgets it (notes/assumptions/30.md, DESIGN CHOICE). -/

namespace Sys2Proof.Machine

/-- Keep what `f` takes from a response, if the command ended with T_OK. -/
def onOk (t : State) (f : State → State) : Step := .next (if t.ctl.tstatus = .ok then f t else t)

/-- GO_IDLE_STATE, CMD0 (R150). -/
def execGoIdleState (s : State) : Step := issueCommand s.seq.cur cdGoIdleState s

/-- SEND_IF_COND, CMD8 of SD (R151). -/
def execSendIfCond (s : State) : Step := issueCommand s.seq.cur cdSendIfCond s

/-- APP_CMD, CMD55 (R152); the status word is not examined. -/
def execAppCmd (rca : BitVec 16) (s : State) : Step := issueCommand s.seq.cur (cdAppCmd rca) s

/-- The OCR is kept (R153, R154); a presented word's stays past its step
(notes/assumptions/30.md, DESIGN CHOICE). -/
def keepOcr (t : State) : Step := onOk t fun t => t.setTmp { t.seq.tmp with ocr := t.ctl.resp.w0 }

/-- ACMD41 as a step of `init` sends it (R153, 30_encoding.md R104): always CMD55 and CMD41. -/
def sendSdOpCond (hcs : Bool) (vdd : BitVec 16) (s : State) : Step :=
  andThen (acmd s.seq.cur s.seq.w.rca (cdSdSendOpCond hcs vdd) s) keepOcr

/-- SD_SEND_OP_COND, ACMD41 (R153); the OCR is kept (`keepOcr`). -/
def execSdSendOpCond (hcs : Bool) (vdd : BitVec 16) (s : State) : Step := andThen (appCommand (cdSdSendOpCond hcs vdd) s) keepOcr

/-- SEND_OP_COND, CMD1 (R154); the OCR is kept (`keepOcr`). -/
def execSendOpCond (vdd : BitVec 16) (s : State) : Step :=
  andThen (issueCommand s.seq.cur (cdSendOpCond vdd) s) keepOcr

/-- ALL_SEND_CID, CMD2 (R155); the CID is kept with its CRC stripped; a presented word's stays past its step
(notes/assumptions/30.md, DESIGN CHOICE). -/
def execAllSendCid (s : State) : Step :=
  andThen (issueCommand s.seq.cur cdAllSendCid s) fun t =>
    onOk t fun t => t.setW { t.seq.w with cid := parseCid t.ctl.resp }

/-- SEND_RELATIVE_ADDR, CMD3 of SD (R156); the published RCA is kept; a presented word's stays past its step
(notes/assumptions/30.md, DESIGN CHOICE). -/
def execSendRelativeAddr (s : State) : Step :=
  andThen (issueCommand s.seq.cur cdSendRelativeAddr s) fun t =>
    onOk t fun t => t.setW { t.seq.w with rca := parseR6 t.ctl.resp.w0 }

/-- SET_RELATIVE_ADDR, CMD3 of MMC (R157); the assigned RCA is kept, the status word is not examined; the RCA that
a presented word keeps stays past its step (notes/assumptions/30.md, DESIGN CHOICE). -/
def execSetRelativeAddr (rca : BitVec 16) (s : State) : Step :=
  andThen (issueCommand s.seq.cur (cdSetRelativeAddr rca) s) fun t =>
    onOk t fun t => t.setW { t.seq.w with rca := rca }

/-- SEND_CSD, CMD9 (R158); the CSD is kept; a presented word's stays past its step
(notes/assumptions/30.md, DESIGN CHOICE). -/
def execSendCsd (rca : BitVec 16) (s : State) : Step :=
  andThen (issueCommand s.seq.cur (cdSendCsd rca) s) fun t =>
    onOk t fun t => t.setTmp { t.seq.tmp with csd := t.ctl.resp.toBits }

/-- SELECT_CARD, CMD7 (R159). -/
def execSelectCard (rca : BitVec 16) (s : State) : Step := issueCommand s.seq.cur (cdSelectCard rca) s

/-- SEND_EXT_CSD, CMD8 of MMC (R160): one block of 512 bytes to the scratch. The command leaves the block there; the step that parses
it forgets it, and a presented word has no such step (notes/assumptions/28.md, DESIGN CHOICE). -/
def execSendExtCsd (s : State) : Step := issue s.seq.cur cdSendExtCsd 1 Config.blockSize .scratch s

/-- SWITCH_FUNC, CMD6 of SD (R161): one block of `SWITCH_STATUS_SIZE` bytes to the scratch, which stays there as that of SEND_EXT_CSD does
(notes/assumptions/28.md, DESIGN CHOICE). -/
def execSwitchFunc (s : State) : Step := issue s.seq.cur cdSwitchFunc 1 s.cfg.switchStatusSize .scratch s

/-- SWITCH, CMD6 of MMC (R162); the status word is not examined. -/
def execSwitch (index value : BitVec 8) (s : State) : Step := issueCommand s.seq.cur (cdSwitch index value) s

/-- SEND_STATUS, CMD13 (R163). -/
def execSendStatus (rca : BitVec 16) (s : State) : Step := issueCommand s.seq.cur (cdSendStatus rca) s

/-- ACMD42 as a step of `init` sends it (R164, 30_encoding.md R104): always CMD55 and CMD42. -/
def sendClrCardDetect (s : State) : Step := acmd s.seq.cur s.seq.w.rca cdSetClrCardDetect s

/-- SET_CLR_CARD_DETECT, ACMD42 (R164). -/
def execSetClrCardDetect (s : State) : Step := appCommand cdSetClrCardDetect s

/-- ACMD6 as a step of `init` sends it (R165, 30_encoding.md R104): always CMD55 and CMD6 with argument 2. -/
def sendSdBusWidth (s : State) : Step := acmd s.seq.cur s.seq.w.rca cdAcmdSetBusWidth s

/-- SET_BUS_WIDTH, ACMD6 (R165). -/
def execAcmdSetBusWidth (s : State) : Step := appCommand cdAcmdSetBusWidth s

/-- READ_SINGLE_BLOCK, CMD17 (R166): one block to the request's buffer. -/
def execReadSingleBlock (arg : Word) (s : State) : Step :=
  issue s.seq.cur (cdReadSingleBlock arg) 1 Config.blockSize (primBuf s.seq.op.buf) s

/-- READ_MULTIPLE_BLOCK, CMD18 (R167): the request's count of blocks to its buffer. -/
def execReadMultipleBlock (arg : Word) (s : State) : Step :=
  issue s.seq.cur (cdReadMultipleBlock arg) s.seq.op.count Config.blockSize (primBuf s.seq.op.buf) s

/-- WRITE_BLOCK, CMD24 (R168): one block from the request's buffer. -/
def execWriteBlock (arg : Word) (s : State) : Step :=
  issue s.seq.cur (cdWriteBlock arg) 1 Config.blockSize (primBuf s.seq.op.buf) s

/-- WRITE_MULTIPLE_BLOCK, CMD25 (R169): the request's count of blocks from its buffer. -/
def execWriteMultipleBlock (arg : Word) (s : State) : Step :=
  issue s.seq.cur (cdWriteMultipleBlock arg) s.seq.op.count Config.blockSize (primBuf s.seq.op.buf) s

/-- SET_BLOCK_COUNT, CMD23 (R170). -/
def execSetBlockCount (count : BitVec 16) (s : State) : Step := issueCommand s.seq.cur (cdSetBlockCount count) s

/-- STOP_TRANSMISSION, CMD12 (R171). -/
def execStopTransmission (s : State) : Step := issueCommand s.seq.cur cdStopTransmission s

end Sys2Proof.Machine
end

