-- ==== Sys2Proof/Machine/HostRequests.lean ====
section
/-! DEFINITION. The meanings of the host requests (format HR): acceptance of `init` and of the two transfers, whose steps then run label by
label, and the five single-step requests of 46_lifecycle_accessors.md. -/

namespace Sys2Proof.Machine

/-- A request is accepted only when none is in flight (20_memory.md R75). -/
def whenIdle (s : State) (t : Step) : Step := if s.seq.busy then .refused .reentrantRequest else t

/-- `deinit` (46_lifecycle_accessors.md R276). -/
def runDeinit (s : State) : State :=
  match portOf s.seq.op.devNum with
  | none => hostReturn .deinit (.status .invalParam) s
  | some d => hostReturn .deinit (.status .none) (s.setSlot d Slot.zero)

/-- `getDevInfo` (R277): the descriptor goes to the output operand. -/
def runGetDevInfo (s : State) : State :=
  match portOf s.seq.op.devNum with
  | none => hostReturn .getDevInfo (.status .invalParam) s
  | some d => hostReturn .getDevInfo (.status .none) { s with host := { s.host with devInfo := s.slot.get d } }

/-- `getCid` (R278): the four words go to the output operand. -/
def runGetCid (s : State) : State :=
  match portOf s.seq.op.devNum with
  | none => hostReturn .getCid (.status .invalParam) s
  | some d => hostReturn .getCid (.status .none) { s with host := { s.host with cid := (s.slot.get d).cid } }

/-- `getWriteProtBits` (R279): the stored CSD bits with a fresh read of the slider, on device 0; all ones on an absent slot. -/
def runGetWriteProtBits (s : State) : State :=
  match portOf s.seq.op.devNum with
  | none => hostReturn .getWriteProtBits (.byte 0xFF) s
  | some d =>
    let sl := s.slot.get d
    if sl.kind = .absent then hostReturn .getWriteProtBits (.byte 0xFF) s
    else
      match d with
      | .p0 =>
        hostReturn .getWriteProtBits (.byte ((sl.writeProtect &&& 6) ||| wpBits (s.wpLevel .p0) false false)) (wpPinRun .p0 s)
      | .p1 => hostReturn .getWriteProtBits (.byte (sl.writeProtect &&& 6)) s

/-- `getSectors` (R280). -/
def runGetSectors (s : State) : State :=
  match portOf s.seq.op.devNum with
  | none => hostReturn .getSectors (.word 0) s
  | some d => hostReturn .getSectors (.word (s.slot.get d).sectorCount) s

/-- The one step at label Q (46_lifecycle_accessors.md); a request that is not a single-step one has no step there. -/
def stepQ (s : State) : Step :=
  match s.seq.op.op with
  | .deinit => .next (runDeinit s)
  | .getDevInfo => .next (runGetDevInfo s)
  | .getCid => .next (runGetCid s)
  | .getWriteProtBits => .next (runGetWriteProtBits s)
  | .getSectors => .next (runGetSectors s)
  | .init => .fault .sequencerStuck
  | .readSectors => .fault .sequencerStuck
  | .writeSectors => .fault .sequencerStuck

/-- `init` (43_init_sequence.md R200): accepted at I_GUARD. -/
def execInit (devNum : BitVec 8) (count : BitVec 16) (sect : Word) (s : State) : Step :=
  whenIdle s (.next (accept ⟨.init, devNum, count, sect, .null⟩ .iGuard s))

/-- `deinit` (46_lifecycle_accessors.md R276). -/
def execDeinit (devNum : BitVec 8) (count : BitVec 16) (sect : Word) (s : State) : Step :=
  whenIdle s (.next (runDeinit (accept ⟨.deinit, devNum, count, sect, .null⟩ .q s)))

/-- `getDevInfo` (R277). -/
def execGetDevInfo (devNum : BitVec 8) (count : BitVec 16) (sect : Word) (s : State) : Step :=
  whenIdle s (.next (runGetDevInfo (accept ⟨.getDevInfo, devNum, count, sect, .null⟩ .q s)))

/-- `getCid` (R278). -/
def execGetCid (devNum : BitVec 8) (count : BitVec 16) (sect : Word) (s : State) : Step :=
  whenIdle s (.next (runGetCid (accept ⟨.getCid, devNum, count, sect, .null⟩ .q s)))

/-- `getWriteProtBits` (R279). -/
def execGetWriteProtBits (devNum : BitVec 8) (count : BitVec 16) (sect : Word) (s : State) : Step :=
  whenIdle s (.next (runGetWriteProtBits (accept ⟨.getWriteProtBits, devNum, count, sect, .null⟩ .q s)))

/-- `getSectors` (R280). -/
def execGetSectors (devNum : BitVec 8) (count : BitVec 16) (sect : Word) (s : State) : Step :=
  whenIdle s (.next (runGetSectors (accept ⟨.getSectors, devNum, count, sect, .null⟩ .q s)))

/-- `readSectors` (45_block_transfer.md R250): accepted at T_GUARD. -/
def execReadSectors (devNum : BitVec 8) (count : BitVec 16) (sect : Word) (buf : HostBuf) (s : State) : Step :=
  whenIdle s (.next (accept ⟨.readSectors, devNum, count, sect, buf⟩ .tGuard s))

/-- `writeSectors` (R250): accepted at T_GUARD. -/
def execWriteSectors (devNum : BitVec 8) (count : BitVec 16) (sect : Word) (buf : HostBuf) (s : State) : Step :=
  whenIdle s (.next (accept ⟨.writeSectors, devNum, count, sect, buf⟩ .tGuard s))

end Sys2Proof.Machine
end

