-- ==== Sys2Proof/Machine/Primitive.lean ====
section
/-! DEFINITION. The meanings of the primitive operations (format PO, 40_controller_primitive.md). Each returns its value in `prim`. -/

namespace Sys2Proof.Machine

/-- A helper runs only between two `issue`s (R130). -/
def whenFree (s : State) (t : Step) : Step := if s.ctl.busy then .refused .controllerBusy else t

/-- A helper that names a port runs only where the primitive may be called for that port (R138). -/
def whenOpen (p : Port) (s : State) (t : Step) : Step :=
  whenFree s (if s.portOpen p then t else .refused .portClosed)

/-- `issue` (R120). What a read to the scratch leaves there stays: no step parses it (notes/assumptions/28.md, DESIGN CHOICE). -/
def execIssue (p : Port) (cd : Descriptor) (bc bs : BitVec 16) (buf : PrimBuf) (s : State) : Step :=
  andThen (issue p cd bc bs buf s) fun t => .next { t with prim := .issued t.ctl.tstatus t.ctl.resp }

/-- `set_clock` (R131). -/
def execSetClock (p : Port) (hz : Word) (s : State) : Step :=
  if hz = 0 then .refused .clockZero
  else whenOpen p s (.next { setClockRun p hz s with prim := .none })

/-- `set_bus_width` (R132). -/
def execSetBusWidth (p : Port) (w : Word) (s : State) : Step :=
  if w = 1 ∨ w = 4 then whenOpen p s (.next { setWidthRun p (w.setWidth 3) s with prim := .none })
  else .refused .widthIllegal

/-- `card_present` (R133); on an absent slot it is allowed as the first act of `init` only (R138, 60_exceptions.md R305). -/
def execCardPresent (p : Port) (s : State) : Step :=
  whenFree s
    (if s.presenceOpen p then .next { presentRun p s with prim := .bit (s.presentLevel p) } else .refused .portClosed)

/-- `write_protect_pin` (R134). -/
def execWriteProtectPin (p : Port) (s : State) : Step :=
  whenOpen p s (.next { wpPinRun p s with prim := .bit (s.wpLevel p) })

/-- The one-word getters (R136): the first response word after an `issue` of the matching kind that returned T_OK, else any value. -/
def getWord (rk : RespKind) (s : State) : Step :=
  whenFree s
    (if s.ctl.respKind = rk ∧ s.ctl.tstatus = .ok then .next { s with prim := .word s.ctl.resp.w0 }
    else .next { s.bump with prim := .word (Config.unspecified Word s.env.draws 0) })

/-- `cmd_response_r1` (R136). -/
def execCmdResponseR1 (s : State) : Step := getWord .r1 s

/-- `cmd_response_r1b` (R136). -/
def execCmdResponseR1b (s : State) : Step := getWord .r1b s

/-- `cmd_response_r2` (R136): the 128-bit value of the four words. -/
def execCmdResponseR2 (s : State) : Step :=
  whenFree s
    (if s.ctl.respKind = .r2 ∧ s.ctl.tstatus = .ok then .next { s with prim := .long s.ctl.resp.toBits }
    else .next { s.bump with prim := .long (Config.unspecified (BitVec 128) s.env.draws 0) })

/-- `cmd_response_r3` (R136). -/
def execCmdResponseR3 (s : State) : Step := getWord .r3 s

/-- `cmd_response_r6` (R136). -/
def execCmdResponseR6 (s : State) : Step := getWord .r6 s

/-- `cmd_response_r7` (R136). -/
def execCmdResponseR7 (s : State) : Step := getWord .r7 s

/-- `ctl_reset` (R137). -/
def execCtlReset (s : State) : Step := .next { ctlResetRun s with prim := .none }

end Sys2Proof.Machine
end

