-- ==== Sys2Proof/Machine/Dispatch.lean ====
section
/-! DEFINITION. The meaning of every operation: one arm per constructor of Instr. -/

namespace Sys2Proof.Machine

/-- The effect of an operation. -/
def exec (i : Instr) (s : State) : Host.Outcome State Fault Refusal :=
  match i with
  | .init d c n => Sys2Proof.Machine.execInit d c n s
  | .deinit d c n => Sys2Proof.Machine.execDeinit d c n s
  | .getDevInfo d c n => Sys2Proof.Machine.execGetDevInfo d c n s
  | .getCid d c n => Sys2Proof.Machine.execGetCid d c n s
  | .getWriteProtBits d c n => Sys2Proof.Machine.execGetWriteProtBits d c n s
  | .getSectors d c n => Sys2Proof.Machine.execGetSectors d c n s
  | .readSectors d c n buf => Sys2Proof.Machine.execReadSectors d c n buf s
  | .writeSectors d c n buf => Sys2Proof.Machine.execWriteSectors d c n buf s
  | .issue p cd bc bs buf => Sys2Proof.Machine.execIssue p cd bc bs buf s
  | .setClock p hz => Sys2Proof.Machine.execSetClock p hz s
  | .setBusWidth p w => Sys2Proof.Machine.execSetBusWidth p w s
  | .cardPresent p => Sys2Proof.Machine.execCardPresent p s
  | .writeProtectPin p => Sys2Proof.Machine.execWriteProtectPin p s
  | .cmdResponseR1 => Sys2Proof.Machine.execCmdResponseR1 s
  | .cmdResponseR1b => Sys2Proof.Machine.execCmdResponseR1b s
  | .cmdResponseR2 => Sys2Proof.Machine.execCmdResponseR2 s
  | .cmdResponseR3 => Sys2Proof.Machine.execCmdResponseR3 s
  | .cmdResponseR6 => Sys2Proof.Machine.execCmdResponseR6 s
  | .cmdResponseR7 => Sys2Proof.Machine.execCmdResponseR7 s
  | .ctlReset => Sys2Proof.Machine.execCtlReset s
  | .goIdleState => Sys2Proof.Machine.execGoIdleState s
  | .sendIfCond => Sys2Proof.Machine.execSendIfCond s
  | .appCmd rca => Sys2Proof.Machine.execAppCmd rca s
  | .sdSendOpCond hcs vdd => Sys2Proof.Machine.execSdSendOpCond hcs vdd s
  | .sendOpCond vdd => Sys2Proof.Machine.execSendOpCond vdd s
  | .allSendCid => Sys2Proof.Machine.execAllSendCid s
  | .sendRelativeAddr => Sys2Proof.Machine.execSendRelativeAddr s
  | .setRelativeAddr rca => Sys2Proof.Machine.execSetRelativeAddr rca s
  | .sendCsd rca => Sys2Proof.Machine.execSendCsd rca s
  | .selectCard rca => Sys2Proof.Machine.execSelectCard rca s
  | .sendExtCsd => Sys2Proof.Machine.execSendExtCsd s
  | .switchFunc => Sys2Proof.Machine.execSwitchFunc s
  | .switch index value => Sys2Proof.Machine.execSwitch index value s
  | .sendStatus rca => Sys2Proof.Machine.execSendStatus rca s
  | .setClrCardDetect => Sys2Proof.Machine.execSetClrCardDetect s
  | .acmdSetBusWidth => Sys2Proof.Machine.execAcmdSetBusWidth s
  | .readSingleBlock arg => Sys2Proof.Machine.execReadSingleBlock arg s
  | .readMultipleBlock arg => Sys2Proof.Machine.execReadMultipleBlock arg s
  | .writeBlock arg => Sys2Proof.Machine.execWriteBlock arg s
  | .writeMultipleBlock arg => Sys2Proof.Machine.execWriteMultipleBlock arg s
  | .setBlockCount count => Sys2Proof.Machine.execSetBlockCount count s
  | .stopTransmission => Sys2Proof.Machine.execStopTransmission s

end Sys2Proof.Machine
end

