-- ==== Sys2Proof/Machine/BlockTransfer.lean ====
section
/-! DEFINITION. Block transfer (45_block_transfer.md): the steps of `readSectors` and `writeSectors`. -/

namespace Sys2Proof.Machine

/-- The slot that a transfer works on. -/
def State.curSlot (s : State) : Slot := s.slot.get s.seq.cur

/-- The admission checks R252 to R254 on a slot, in their order: count, range, 2 GiB, write protection. -/
def admission (r : Request) (sl : Slot) : ErrorCode :=
  if r.count = 0 then .invalParam
  else if sl.sectorCount.toNat < r.sect.toNat + r.count.toNat then .invalParam
  else if sl.addressing = .byte ∧ 2 ^ 31 < (r.sect.toNat + r.count.toNat) * 512 then .invalParam
  else if r.isRead = false ∧ sl.writeProtect ≠ 0 then .writeProt
  else .none

/-- The card address of a sector (R255). -/
def cardAddress (a : Addressing) (sect : Word) : Word :=
  match a with
  | .block => sect
  | .byte => sect * 512

/-- T_GUARD (R251 to R256). -/
def stepTGuard (s : State) : Step :=
  let r := s.seq.op
  match portOf r.devNum with
  | none => .next (hostReturn r.op (.status .invalParam) s)
  | some d =>
    let t := { s with seq := { s.seq with cur := d } }
    let sl := t.slot.get d
    if sl.kind = .absent then .next (hostReturn r.op (.status .noCard) t)
    else if admission r sl ≠ .none then .next (hostReturn r.op (.status (admission r sl)) t)
    else
      match rangeRefusal (bufferBase r.buf t.cfg) (r.count.toNat * 512) t.cfg with
      | some e => .refused e
      | none =>
        .next ((t.setTmp { t.seq.tmp with arg := cardAddress sl.addressing r.sect, retry := 0 }).goto .tPre)

/-- `pre` (R257): SET_BLOCK_COUNT precedes a multi-block transfer on SD kinds, if the implementation uses it. -/
def State.usesBlockCount (s : State) : Bool :=
  s.cfg.useCmd23 && (s.curSlot.kind == .sdsc || s.curSlot.kind == .sdhc) && decide (1 < s.seq.op.count.toNat)

/-- T_PRE (R257). -/
def stepTPre (s : State) : Step :=
  if s.usesBlockCount then
    andThen (execSetBlockCount s.seq.op.count s) fun t =>
      .next (if t.ctl.tstatus = .ok then t.goto .tData else transferReturn .sectRw t)
  else .next (s.goto .tData)

/-- The data command of a request (R259). -/
def dataCommand (s : State) : Step :=
  if s.seq.op.isRead then
    (if 1 < s.seq.op.count.toNat then execReadMultipleBlock s.seq.tmp.arg s else execReadSingleBlock s.seq.tmp.arg s)
  else
    (if 1 < s.seq.op.count.toNat then execWriteMultipleBlock s.seq.tmp.arg s else execWriteBlock s.seq.tmp.arg s)

/-- T_DATA (R258): a read that ends in a CRC error is retried a bounded number of times, a write never. -/
def stepTData (s : State) : Step :=
  andThen (dataCommand s) fun t =>
    let multi := decide (1 < t.seq.op.count.toNat)
    .next
      (if t.ctl.tstatus = .ok then t.goto (if multi && !t.usesBlockCount then .tStop else .tStatus)
      else if t.seq.op.isRead = true ∧ t.ctl.tstatus = .crc ∧ t.seq.tmp.retry < t.cfg.readCrcRetries then
        (t.setTmp { t.seq.tmp with retry := t.seq.tmp.retry + 1, err := .none }).goto (if multi then .tRecover else .tPre)
      else
        let u := t.setTmp { t.seq.tmp with err := .sectRw }
        if multi then u.goto .tRecover else transferReturn .sectRw u)

/-- T_STOP (R260). -/
def stepTStop (s : State) : Step :=
  andThen (execStopTransmission s) fun t =>
    .next (if t.ctl.tstatus = .ok then t.goto .tStatus else transferReturn .sectRw t)

/-- The end of T_RECOVER (R262): the retry, or the return of the error. -/
def leaveRecovery (s : State) : State :=
  let t := { s with seq := { s.seq with polling := false } }
  if t.seq.tmp.err = .none then t.goto .tPre else transferReturn t.seq.tmp.err t

/-- T_RECOVER (R262): CMD12 first, its result ignored, which starts a loop with a budget of its own (60_exceptions.md R312); then one poll of the card status per step, until the card is in `tran`, the poll
fails, or TIMER says the budget has expired. -/
def stepTRecover (s : State) : Step :=
  if s.seq.polling then
    andThen (execSendStatus s.curSlot.rca s) fun t =>
      .next
        (if t.ctl.tstatus ≠ .ok ∨ (parseR1 t.ctl.resp.w0).state = stateTran then leaveRecovery t
        else if t.expired then leaveRecovery t.dropTimer
        else t.dropTimer)
  else
    andThen (execStopTransmission s) fun t => .next { t.startLoop with seq := { t.seq with polling := true } }

/-- The status of a transfer from the final SEND_STATUS (R263): transport, error bits, state, in that order. -/
def finalStatus (t : State) : ErrorCode :=
  if t.ctl.tstatus ≠ .ok then .sendStatus
  else if (parseR1 t.ctl.resp.w0).err ≠ 0 then .cardStatus
  else if (parseR1 t.ctl.resp.w0).state ≠ stateTran then .sectRw
  else .none

/-- T_STATUS (R263). -/
def stepTStatus (s : State) : Step :=
  andThen (execSendStatus s.curSlot.rca s) fun t => .next (transferReturn (finalStatus t) t)

end Sys2Proof.Machine
end

