-- ==== Sys2Proof/Machine/InitSequence.lean ====
section
/-! DEFINITION. The steps of `init` from its guards to stage F, the commit and the failure step (43_init_sequence.md). Each definition is the
step at one label. -/

namespace Sys2Proof.Machine

/-- The temporaries that the presence step clears (R202). -/
def Temps.cleared (t : Temps) : Temps := { t with sd2 := false, mmc := false, legacyProbe := false, hsCap := false }

/-- I_GUARD (R201, R202): device number, re-entry, presence. -/
def stepIGuard (s : State) : Step :=
  match portOf s.seq.op.devNum with
  | none => .next (hostReturn .init (.status .invalParam) s)
  | some d =>
    if (s.slot.get d).kind ≠ .absent then .next (hostReturn .init (.status .initialized) s)
    else
      let t := { s with seq := { s.seq with cur := d, w := Slot.zero, tmp := s.seq.tmp.cleared } }
      let u := presentRun d t
      .next (if t.presentLevel d then u.goto .a1 else hostReturn .init (.status .noCard) (forgetRequest u))

/-- A1 (R203): the identification clock and the 1-bit bus. -/
def stepA1 (s : State) : Step :=
  let t := setWidthRun s.seq.cur 1 (setClockRun s.seq.cur Config.clkIdentHz s)
  .next ((t.setW { t.seq.w with clockHz := Config.clkIdentHz, busWidth := 1 }).goto .a2)

/-- A2 (R204): CMD0. -/
def stepA2 (s : State) : Step :=
  andThen (execGoIdleState s) fun t =>
    .next (if t.ctl.tstatus = .ok then t.goto .a3 else t.raise .goIdleState)

/-- Entry of a polling loop of stage B at label `l`: it has a budget of its own (R206). -/
def enterLoop (l : Label) (t : Temps) (s : State) : State := ((s.setTmp t).startLoop).goto l

/-- A3 (R205): SEND_IF_COND; no response selects the legacy path. -/
def stepA3 (s : State) : Step :=
  andThen (execSendIfCond s) fun t =>
    .next
      (match t.ctl.tstatus with
      | .ok =>
        if echoMatches t.ctl.resp.w0 then enterLoop .bSd { t.seq.tmp with sd2 := true } t
        else t.raise .ifCondResp
      | .timeout =>
        match t.seq.cur with
        | .p1 => enterLoop .bMmc { t.seq.tmp with sd2 := false, mmc := true } t
        | .p0 => enterLoop .bSd { t.seq.tmp with sd2 := false, legacyProbe := true } t
      | .crc => t.raise .sendIfCond
      | .fail => t.raise .sendIfCond)

/-- What a polling step makes of an OCR (R206): ready goes on, else TIMER decides between another poll and OP_COND_TMOUT. -/
def pollOcr (again : Label) (t : State) : State :=
  if t.seq.tmp.ocr.getLsbD 31 then t.goto .bDone
  else if t.expired then t.dropTimer.raise .opCondTmout
  else t.dropTimer.goto again

/-- B_SD (R207): one poll with ACMD41; a first legacy poll that times out means MMC. -/
def stepBSd (s : State) : Step :=
  andThen (sendSdOpCond s.seq.tmp.sd2 s.cfg.vddWindow s) fun t =>
    if t.ctl.tstatus = .timeout ∧ s.seq.tmp.legacyProbe = true then
      .next (enterLoop .bMmc { t.seq.tmp with legacyProbe := false, mmc := true } t)
    else
      let u := t.setTmp { t.seq.tmp with legacyProbe := false }
      .next (if u.ctl.tstatus = .ok then pollOcr .bSd u else u.raise .sendOpCond)

/-- B_MMC (R208): one poll with CMD1. -/
def stepBMmc (s : State) : Step :=
  andThen (execSendOpCond s.cfg.vddWindow s) fun t =>
    .next (if t.ctl.tstatus = .ok then pollOcr .bMmc t else t.raise .sendOpCond)

/-- The kind that the OCR selects (R210, R211). -/
def kindOf (mmc sd2 : Bool) (o : Ocr) : Kind :=
  if mmc then (if o.mmcSector then .mmchc else .mmc)
  else (if sd2 && o.hc then .sdhc else .sdsc)

/-- B_DONE (R209 to R211): voltage, capacity class, kind. -/
def stepBDone (s : State) : Step :=
  let o := parseR3 (vddMask s.cfg) s.seq.tmp.ocr
  if o.voltOk then
    let k := kindOf s.seq.tmp.mmc s.seq.tmp.sd2 o
    .next ((s.setW { s.seq.w with kind := k, addressing := k.addressing }).goto .c1)
  else .next (s.raise .voltSupport)

/-- C1 (R212): the CID. -/
def stepC1 (s : State) : Step :=
  andThen (execAllSendCid s) fun t =>
    .next (if t.ctl.tstatus = .ok then t.goto .c2 else t.raise .allSendCid)

/-- C2 (R213): the RCA, assigned to an MMC, published by an SD card. -/
def stepC2 (s : State) : Step :=
  andThen (if s.seq.tmp.mmc then execSetRelativeAddr s.cfg.mmcRca s else execSendRelativeAddr s) fun t =>
    .next (if t.ctl.tstatus = .ok then t.goto .d1 else t.raise .setSendRca)

/-- The slider as stage D samples it (R217): on device 0 only. -/
def State.slider (s : State) : Bool :=
  match s.seq.cur with
  | .p0 => s.wpLevel .p0
  | .p1 => false

/-- The state after that pin read. -/
def sampleSlider (s : State) : State :=
  match s.seq.cur with
  | .p0 => wpPinRun .p0 s
  | .p1 => s

/-- Command classes and write protection of a CSD go to the working slot (R216). -/
def recordCsd (f : Csd) (slider : Bool) (s : State) : State :=
  s.setW { s.seq.w with ccc := f.ccc, writeProtect := wpBits slider f.tmpWp f.permWp }

/-- The capacity goes to the working slot (R216); a CSD without a usable one fails. -/
def recordSectors (n : Option Word) (s : State) : State :=
  match n with
  | none => s.raise .sendCsd
  | some n => (s.setW { s.seq.w with sectorCount := n }).goto .e1

/-- The part of D1 after a good CSD (R216, R217): command classes, write protection, capacity. -/
def storeCsd (t : State) : State :=
  recordSectors (usableSectors (parseCsd t.seq.tmp.csd) t.seq.tmp.mmc)
    (recordCsd (parseCsd t.seq.tmp.csd) t.slider (sampleSlider t))

/-- D1 (R214 to R217): the default clock, the CSD. -/
def stepD1 (s : State) : Step :=
  let t := setClockRun s.seq.cur Config.clkDefaultHz s
  let u := t.setW { t.seq.w with clockHz := Config.clkDefaultHz }
  andThen (execSendCsd u.seq.w.rca u) fun v =>
    .next (if v.ctl.tstatus = .ok then storeCsd v else v.raise .sendCsd)

/-- E1 (R218): select the card; a locked card fails. -/
def stepE1 (s : State) : Step :=
  andThen (execSelectCard s.seq.w.rca s) fun t =>
    .next
      (if t.ctl.tstatus = .ok then
        if (parseR1 t.ctl.resp.w0).locked then t.raise .locked
        else t.goto (if t.seq.tmp.mmc then .f1 else .gHs)
      else t.raise .selectCard)

/-- The capacity and the high-speed capability of an EXT_CSD (R219): a SEC_COUNT of 0 overrides nothing. -/
def recordExtCsd (t : State) : State :=
  let n := extCsdSecCount t.seq.scratch
  (t.setW { t.seq.w with sectorCount := if n = 0 then t.seq.w.sectorCount else n }).setTmp
    { t.seq.tmp with hsCap := extCsdHsCap t.seq.scratch }

/-- The part of F1 after a good EXT_CSD (R219, R220). -/
def storeExtCsd (t : State) : State :=
  let u := forgetScratch (recordExtCsd t)
  if u.seq.w.sectorCount = 0 then u.raise .sendExtCsd else u.goto .gHs

/-- F1 (R219, R220): the EXT_CSD of an MMC. -/
def stepF1 (s : State) : Step :=
  andThen (execSendExtCsd s) fun t =>
    .next (if t.ctl.tstatus = .ok then storeExtCsd t else (forgetScratch t).raise .sendExtCsd)

/-- COMMIT (R221): the slot takes the working copy in one step. -/
def stepCommit (s : State) : Step :=
  .next (hostReturn .init (.status .none) (forgetRequest (s.setSlot s.seq.cur s.seq.w)))

/-- FAIL (R222, 60_exceptions.md R300). -/
def stepFail (s : State) : Step := .next (initFailure s)

end Sys2Proof.Machine
end

