-- ==== Sys2Proof/Machine/ModeTuning.lean ====
section
/-! DEFINITION. Mode tuning, stage G of `init` (44_mode_tuning.md): high speed, card-detect pull-up, 4-bit bus. -/

namespace Sys2Proof.Machine

/-- Command class 10, the class of SWITCH_FUNC (R235). -/
def switchClass (ccc : BitVec 12) : Bool := ccc.getLsbD 10

/-- EXT_CSD index HS_TIMING (30_encoding.md R101). -/
def hsTimingIndex : BitVec 8 := 185

/-- EXT_CSD index BUS_WIDTH (30_encoding.md R101). -/
def busWidthIndex : BitVec 8 := 183

/-- `conclude(confirmed)` (R239): the clock is raised only after confirmation; without it the default clock stays, unless the controller
cannot sustain it. -/
def concludeHs (confirmed : Bool) (s : State) : State :=
  let l : Label := if s.seq.tmp.mmc then .gBw else .gCd
  if confirmed then
    let t := setClockRun s.seq.cur s.cfg.clkHsHz s
    (t.setW { t.seq.w with clockHz := s.cfg.clkHsHz }).goto l
  else if s.cfg.sustainsDefaultClock then s.goto l
  else s.raise .switchHs

/-- `hs_sd()` (R237): SWITCH_FUNC, confirmed by the status block. -/
def hsSd (s : State) : Step :=
  andThen (execSwitchFunc s) fun t =>
    .next (concludeHs (decide (t.ctl.tstatus = .ok) && switchConfirmed t.seq.scratch) (forgetScratch t))

/-- `hs_mmc()` (R238): SWITCH(HS_TIMING, 1), confirmed by SEND_STATUS. -/
def hsMmc (s : State) : Step :=
  andThen (execSwitch hsTimingIndex 1 s) fun t =>
    if t.ctl.tstatus = .ok then
      andThen (execSendStatus t.seq.w.rca t) fun u =>
        .next (concludeHs (decide (u.ctl.tstatus = .ok) && switchOk u.ctl.resp.w0) u)
    else .next (concludeHs false t)

/-- G_HS (R236): a card that is not capable is sent no command. -/
def stepGHs (s : State) : Step :=
  if s.seq.tmp.mmc then (if s.seq.tmp.hsCap then hsMmc s else .next (concludeHs false s))
  else (if switchClass s.seq.w.ccc then hsSd s else .next (concludeHs false s))

/-- G_CD (R240): ACMD42 releases the card-detect pull-up. -/
def stepGCd (s : State) : Step :=
  andThen (sendClrCardDetect s) fun t =>
    .next (if t.ctl.tstatus = .ok then t.goto .gBw else t.raise .setClrCd)

/-- G_BW (R241 to R243): card switch, status check, controller register, record. -/
def stepGBw (s : State) : Step :=
  andThen (if s.seq.tmp.mmc then execSwitch busWidthIndex 1 s else sendSdBusWidth s) fun t =>
    if t.ctl.tstatus = .ok then
      andThen (execSendStatus t.seq.w.rca t) fun u =>
        let good := if u.seq.tmp.mmc then switchOk u.ctl.resp.w0 else statusOk u.ctl.resp.w0
        .next
          (if u.ctl.tstatus = .ok ∧ good = true then
            let v := setWidthRun u.seq.cur 4 u
            (v.setW { v.seq.w with busWidth := 4 }).goto .commit
          else u.raise .setBusWidth)
    else .next (t.raise .setBusWidth)

end Sys2Proof.Machine
end

