-- ==== Sys2Proof/Machine/Sequencer.lean ====
section
/-! DEFINITION. The sequencer's step: the step rule of the label in `seq.pc` (10_state.md R34, R35). -/

namespace Sys2Proof.Machine

/-- The step rule of a label. -/
def stepAt (l : Label) (s : State) : Step :=
  match l with
  | .idle => .fault .sequencerStuck
  | .q => stepQ s
  | .iGuard => stepIGuard s
  | .a1 => stepA1 s
  | .a2 => stepA2 s
  | .a3 => stepA3 s
  | .bSd => stepBSd s
  | .bMmc => stepBMmc s
  | .bDone => stepBDone s
  | .c1 => stepC1 s
  | .c2 => stepC2 s
  | .d1 => stepD1 s
  | .e1 => stepE1 s
  | .f1 => stepF1 s
  | .gHs => stepGHs s
  | .gCd => stepGCd s
  | .gBw => stepGBw s
  | .commit => stepCommit s
  | .fail => stepFail s
  | .tGuard => stepTGuard s
  | .tPre => stepTPre s
  | .tData => stepTData s
  | .tStop => stepTStop s
  | .tRecover => stepTRecover s
  | .tStatus => stepTStatus s

/-- The sequencer's step. It does nothing while no request runs (70_reset_and_hazards.md R326), and has no step while the controller is
busy (00_scope.md R12). -/
def runSequencer (s : State) : Step :=
  if s.seq.busy then
    if s.ctl.busy then .refused .controllerBusy else stepAt s.seq.pc s
  else .next s

end Sys2Proof.Machine
end

