-- ==== Sys2Proof/Machine/Step.lean ====
section
/-! DEFINITION. One step of the machine: the operation presented at an interface, if there is one, else the sequencer's step. -/

namespace Sys2Proof.Machine

/-- One step. A presented word is taken from its interface, decoded as its place after the last command asks, and run; otherwise the
request in flight goes on. No step is a store by HOST: how it fills its buffers is left outside the machine (notes/assumptions/29.md,
DESIGN CHOICE). -/
def step (s : State) : Host.Outcome State Fault Refusal :=
  match s.fetch with
  | none => runSequencer s
  | some w =>
    match decode (s.appPending s.seq.cur) w with
    | .error e => .refused (refusalOf e)
    | .ok i => exec i { s with fetch := none }

/-- The word of an opcode-table row presented where `step` fetches (notes/assumptions/1.md). -/
def State.withFetchWord (s : State) (nbits w : Nat) : State := s.presentWord nbits w

end Sys2Proof.Machine
end

