-- ==== Sys2Proof/Safety.lean ====
section
/-! DEFINITION. What the statements are about: slot modes, the invariants of the spec as predicates on states, and the events of a command. -/

namespace Sys2Proof.Machine

/-! ### Slots (10_state.md R31, 60_exceptions.md R304) -/

/-- The three modes of a slot (60_exceptions.md R304). -/
inductive SlotMode where
  | absent | initializing | initialized
deriving DecidableEq, Repr

/-- The mode of slot `d` (R304): it is not stored apart from the slot. -/
def State.slotMode (s : State) (d : Port) : SlotMode :=
  if (s.slot.get d).kind ≠ .absent then .initialized
  else if s.initRunningOn d then .initializing
  else .absent

/-- The parts of the slot invariant that hold from the first step of `init` on: unused bits are 0 (10_state.md R23, R27). -/
def Slot.Clean (w : Slot) : Prop := w.writeProtect.extractLsb 7 3 = 0 ∧ w.cid.w3.extractLsb 31 24 = 0

/-- An initialized slot (10_state.md R31, R22, R30). -/
def Slot.Initialized (w : Slot) : Prop :=
  w.kind ≠ .absent ∧ w.kind ≠ .sduc ∧ w.sectorCount ≠ 0 ∧ w.clockHz ≠ 0 ∧ (w.busWidth = 1 ∨ w.busWidth = 4) ∧
    w.addressing = w.kind.addressing ∧ w.Clean

/-- The slot invariant (10_state.md R31): entirely absent or initialized. -/
def Slot.Sound (w : Slot) : Prop := w = Slot.zero ∨ w.Initialized

/-! ### The working slot, label by label (43_init_sequence.md) -/

/-- Labels of `init` after its guards (10_state.md R35). -/
def Label.inInit : Label → Bool
  | .a1 | .a2 | .a3 | .bSd | .bMmc | .bDone | .c1 | .c2 | .d1 | .e1 | .f1 | .gHs | .gCd | .gBw | .commit | .fail => true
  | .idle | .q | .iGuard | .tGuard | .tPre | .tData | .tStop | .tRecover | .tStatus => false

/-- Labels after A1, where the port has been programmed (R203). -/
def Label.afterA1 : Label → Bool
  | .a2 | .a3 | .bSd | .bMmc | .bDone | .c1 | .c2 | .d1 | .e1 | .f1 | .gHs | .gCd | .gBw | .commit => true
  | .idle | .q | .iGuard | .a1 | .fail | .tGuard | .tPre | .tData | .tStop | .tRecover | .tStatus => false

/-- Labels after stage B, where the kind is known (R211). -/
def Label.afterB : Label → Bool
  | .c1 | .c2 | .d1 | .e1 | .f1 | .gHs | .gCd | .gBw | .commit => true
  | .idle | .q | .iGuard | .a1 | .a2 | .a3 | .bSd | .bMmc | .bDone | .fail | .tGuard | .tPre | .tData | .tStop | .tRecover
  | .tStatus => false

/-- Labels of stage G and the commit. -/
def Label.afterF : Label → Bool
  | .gHs | .gCd | .gBw | .commit => true
  | .idle | .q | .iGuard | .a1 | .a2 | .a3 | .bSd | .bMmc | .bDone | .c1 | .c2 | .d1 | .e1 | .f1 | .fail | .tGuard | .tPre | .tData
  | .tStop | .tRecover | .tStatus => false

/-- Labels of a transfer after its guards (45_block_transfer.md). -/
def Label.inTransfer : Label → Bool
  | .tPre | .tData | .tStop | .tRecover | .tStatus => true
  | .idle | .q | .iGuard | .a1 | .a2 | .a3 | .bSd | .bMmc | .bDone | .c1 | .c2 | .d1 | .e1 | .f1 | .gHs | .gCd | .gBw | .commit | .fail
  | .tGuard => false

/-- What the working slot holds when the sequencer stands at label `l` of `init`: the attributes that the steps before it have
recorded. -/
def WorkingSlot (l : Label) (mmc : Bool) (w : Slot) : Prop :=
  w.Clean ∧
  (l.afterA1 = true → w.clockHz ≠ 0 ∧ (w.busWidth = 1 ∨ w.busWidth = 4)) ∧
  (l.afterB = true → w.kind ≠ .absent ∧ w.kind ≠ .sduc ∧ w.addressing = w.kind.addressing ∧ w.kind.isMmc = mmc) ∧
  (l = .e1 → mmc = false → w.sectorCount ≠ 0) ∧
  (l = .f1 → mmc = true) ∧
  (l.afterF = true → w.sectorCount ≠ 0)

/-- `init` past its guards: the slot it works on still reads as absent (10_state.md R33, 46_lifecycle_accessors.md R282). -/
def State.InitSound (s : State) : Prop :=
  s.seq.op.op = .init ∧ s.slot.get s.seq.cur = Slot.zero ∧ WorkingSlot s.seq.pc s.seq.tmp.mmc s.seq.w

/-- A transfer past its guards: it works on an initialized slot, with a buffer range that exists (45_block_transfer.md R251, R256). -/
def State.TransferSound (s : State) : Prop :=
  (s.seq.op.op = .readSectors ∨ s.seq.op.op = .writeSectors) ∧ portOf s.seq.op.devNum = some s.seq.cur ∧
    (s.slot.get s.seq.cur).kind ≠ .absent ∧ s.seq.op.count ≠ 0 ∧
    rangeRefusal (bufferBase s.seq.op.buf s.cfg) (s.seq.op.count.toNat * 512) s.cfg = none

/-- The sequencer stands where its request allows (10_state.md R34, R35). -/
def State.SequencerSound (s : State) : Prop :=
  match s.seq.busy with
  | false => s.seq.pc = .idle
  | true =>
    (s.seq.pc = .iGuard ∧ s.seq.op.op = .init) ∨
    (s.seq.pc = .tGuard ∧ (s.seq.op.op = .readSectors ∨ s.seq.op.op = .writeSectors)) ∨
    (s.seq.pc.inInit = true ∧ s.InitSound) ∨
    (s.seq.pc.inTransfer = true ∧ s.TransferSound)

/-- Between steps no `issue` is in progress, no interrupt is pending and the engine is disarmed (10_state.md R43, R44, R45). -/
def Controller.Quiet (c : Controller) (e : Engine) : Prop := c.busy = false ∧ c.irqPending = false ∧ e.armed = false

/-- A programmed clock is no 0 and a programmed width is 1 or 4 (10_state.md R39, R40). -/
def Controller.Legal (c : Controller) : Prop :=
  ∀ p, (c.clkSet.get p = true → c.clk.get p ≠ 0) ∧ (c.widthSet.get p = true → c.width.get p = 1 ∨ c.width.get p = 4)

/-- The invariant that every step keeps, whatever operation is presented. -/
def State.Sound (s : State) : Prop :=
  (∀ d, (s.slot.get d).Sound) ∧ s.SequencerSound ∧ s.ctl.Quiet s.de ∧ s.ctl.Legal ∧
    s.mem.wf s.cfg.memBytes = true ∧ s.seq.scratch.wf Config.scratchBytes = true ∧ s.cfg.clkHsHz ≠ 0

/-! ### Slots and controller agree (10_state.md R53) -/

/-- The controller's registers of port `d` are programmed with this clock and width. -/
def Controller.ProgrammedWith (c : Controller) (d : Port) (hz : Word) (w : BitVec 3) : Prop :=
  c.clkSet.get d = true ∧ c.widthSet.get d = true ∧ c.clk.get d = hz ∧ c.width.get d = w

/-- The registers of every initialized slot's port hold the slot's clock and width (R53). -/
def State.SlotsMatch (s : State) : Prop :=
  ∀ d, (s.slot.get d).kind ≠ .absent → s.ctl.ProgrammedWith d (s.slot.get d).clockHz (s.slot.get d).busWidth

/-- The registers of the port that `init` runs on hold the working slot's clock and width (60_exceptions.md R306). -/
def State.WorkMatches (s : State) : Prop :=
  s.seq.busy = true → s.seq.pc.afterA1 = true → s.ctl.ProgrammedWith s.seq.cur s.seq.w.clockHz s.seq.w.busWidth

/-- Only the host presents operations, and it presents host requests only: the primitive is called by nobody but the sequencer
(40_controller_primitive.md R138). -/
def State.HostOnly (s : State) : Prop :=
  match s.fetch with
  | none => True
  | some (.hr _ _) => True
  | some (.po _ _ _) => False
  | some (.cd _) => False

/-- No CMD55 is outstanding between steps (10_state.md R49). -/
def State.NoAppPending (s : State) : Prop := ∀ p, s.appPending p = false

/-- The invariant of a machine that is driven by host requests only. -/
def State.Coherent (s : State) : Prop := s.Sound ∧ s.SlotsMatch ∧ s.WorkMatches ∧ s.NoAppPending

/-- The status block of SWITCH_FUNC has at least the byte that is parsed and fits the scratch (00_scope.md R7, 10_state.md R36). -/
def State.ConfigUsable (s : State) : Prop :=
  17 ≤ s.cfg.switchStatusSize.toNat ∧ s.cfg.switchStatusSize.toNat ≤ Config.scratchBytes

/-! ### What an `issue` leaves (40_controller_primitive.md R121 to R129) -/

/-- The completion events of an `issue` (R127): interrupt and acknowledge, if the platform has the interrupt. -/
def irqEvents (cfg : Config) : List Event := if cfg.hasIrq then [.irq, .ack] else []

/-- Every byte of host memory reads as before. -/
def State.SameMemory (s t : State) : Prop := ∀ a, t.mem.readByte a = s.mem.readByte a

/-- Every byte of host memory outside the `n` bytes from `lo` on reads as before. -/
def State.SameMemoryOutside (lo n : Nat) (s t : State) : Prop :=
  ∀ a, a < lo ∨ lo + n ≤ a → t.mem.readByte a = s.mem.readByte a

/-- What an operation of the primitive leaves alone whatever the card answers: slots, pins, the host's side, parameters, and the clock and
width registers (R129, 10_state.md R21, R39, R40). -/
def State.SameOutside (s t : State) : Prop :=
  t.slot = s.slot ∧ t.pin = s.pin ∧ t.host = s.host ∧ t.cfg = s.cfg ∧ t.fetch = s.fetch ∧
    t.ctl.clk = s.ctl.clk ∧ t.ctl.width = s.ctl.width ∧ t.ctl.clkSet = s.ctl.clkSet ∧ t.ctl.widthSet = s.ctl.widthSet

/-- The controller after an `issue` on port `p` of a command of kind `rk` that ended with `st` (R121, R127), and its frame. -/
def State.AfterIssue (p : Port) (rk : RespKind) (st : TStatus) (s t : State) : Prop :=
  t.ctl.sel = p ∧ t.ctl.tstatus = st ∧ t.ctl.respKind = (if st = .ok then rk else .none) ∧ t.ctl.busy = false ∧
    (s.ctl.irqPending = false → t.ctl.irqPending = false) ∧ t.de.armed = false ∧ s.SameOutside t

/-- The words `x` hold a response `r` of kind `rk` (42_response_parser.md R176). -/
def holdsResponse (rk : RespKind) (r x : Words4) : Prop :=
  match rk with
  | .none => True
  | .r2 => x = r
  | .r1 | .r1b | .r3 | .r6 | .r7 => x.w0 = r.w0

/-- What the next answers of CARD make of a command without data (R124, R126): its transport status and the specified response words. -/
def State.Outcome (cd : Descriptor) (st : TStatus) (words : List Word) (s : State) : Prop :=
  if cd.rk = .none then words = [] ∧ st = (if s.nextAnswer = .ctlFail then TStatus.fail else TStatus.ok)
  else
    match s.nextAnswer with
    | .silent => st = .timeout ∧ words = []
    | .badCrc => st = .crc ∧ words = []
    | .ctlFail => st = .fail ∧ words = []
    | .good r =>
      words = specifiedWords cd.rk st r ∧ (st = .ok ∨ (cd.rk = .r1b ∧ st = .timeout)) ∧
        (cd.rk = .r1b → (s.env.busy.head? = some .released → st = .ok) ∧ (s.env.busy.head? = some .timeout → st = .timeout))

/-- A command without data has been issued on port `p`: its outcome, its history, and what it leaves alone. The sequencer's own registers are
not mentioned: some commands keep a part of the response. -/
def State.CommandSent (p : Port) (cd : Descriptor) (st : TStatus) (words : List Word) (s t : State) : Prop :=
  s.Outcome cd st words ∧ s.AfterIssue p cd.rk st t ∧
    (∀ r, s.nextAnswer = .good r → st = .ok → holdsResponse cd.rk r t.ctl.resp) ∧
    t.hist = s.hist ++ [.cmd p cd] ++ irqEvents s.cfg ++ [.resp st words] ∧
    t.de = { s.de with armed := false } ∧ s.SameMemory t ∧ t.prim = s.prim ∧
    t.env.answers = s.env.answers.tail ∧ t.env.blocks = s.env.blocks ∧ t.env.timer = s.env.timer ∧ t.env.budget = s.env.budget ∧
    t.env.pins = s.env.pins

/-- An application command has been issued on port `seq.cur` (30_encoding.md R104): CMD55 with the RCA known so far, then, only if that ended
with T_OK, the command itself; `st` is the status of the last command sent. -/
def State.PairSent (cd : Descriptor) (st : TStatus) (s t : State) : Prop :=
  ∃ u st1 w1, s.CommandSent s.seq.cur ⟨.r1, .none, 55, s.seq.w.rca ++ 0#16⟩ st1 w1 u ∧ u.seq = s.seq ∧
    ((st1 ≠ .ok ∧ st = st1 ∧ t = u) ∨ (st1 = .ok ∧ ∃ w2, u.CommandSent s.seq.cur cd st w2 t))

/-- The `n` bytes at offset `o` of the target of an `issue` (20_memory.md R63, R66). -/
def State.targetBytes (buf : PrimBuf) (o n : Nat) (s : State) : List Byte :=
  match buf with
  | .null => s.mem.readBytes (s.cfg.dmaBase + o) n
  | .addr a => s.mem.readBytes (a + o) n
  | .scratch => s.seq.scratch.readBytes o n

/-- Every byte of host memory and of the scratch outside the first `n` bytes of the target of an `issue` reads as before. -/
def State.SameOutsideTarget (buf : PrimBuf) (n : Nat) (s t : State) : Prop :=
  match buf with
  | .null => t.seq.scratch = s.seq.scratch ∧ s.SameMemoryOutside s.cfg.dmaBase n t
  | .addr a => t.seq.scratch = s.seq.scratch ∧ s.SameMemoryOutside a n t
  | .scratch => s.SameMemory t ∧ ∀ a, n ≤ a → t.seq.scratch.readByte a = s.seq.scratch.readByte a

/-- Blocks `blocks`, of `bs` bytes each, have been read to the target of an `issue` (R125, 20_memory.md R66), the card having answered
`r`. -/
def State.BlocksRead (p : Port) (cd : Descriptor) (bc bs : BitVec 16) (buf : PrimBuf) (r : Words4) (blocks : List (List Byte))
    (s t : State) : Prop :=
  s.AfterIssue p cd.rk .ok t ∧ holdsResponse cd.rk r t.ctl.resp ∧
    t.hist = s.hist ++ [.arm .read bc bs (pathOf buf s.cfg), .cmd p cd] ++ blocks.zipIdx.map (fun x => Event.blockIn x.2 x.1) ++
      irqEvents s.cfg ++ [.resp .ok (specifiedWords cd.rk .ok r)] ∧
    t.de = ⟨false, .read, 0, bs, pathOf buf s.cfg, BitVec.ofNat 32 (bc.toNat * bs.toNat)⟩ ∧
    t.seq = { s.seq with scratch := t.seq.scratch } ∧
    t.targetBytes buf 0 (bc.toNat * bs.toNat) = blocks.flatten ∧ s.SameOutsideTarget buf (bc.toNat * bs.toNat) t

/-- The card's next answers let a data transfer of `n` blocks go well: a good response `r`, the blocks, and the end of the busy wait. -/
def State.CardDelivers (cd : Descriptor) (n : Nat) (r : Words4) (blocks : List (List Byte)) (s : State) : Prop :=
  s.nextAnswer = .good r ∧ blocks.length = n ∧ (∃ rest, s.env.blocks = blocks.map BlockAnswer.good ++ rest) ∧
    (cd.rk = .r1b ∨ cd.dir = .write → s.env.busy.head? = some .released)

/-- The blocks of the target of an `issue`, memory or scratch, have been handed to the card (R125, 20_memory.md R66). -/
def State.BlocksWritten (p : Port) (cd : Descriptor) (bc bs : BitVec 16) (buf : PrimBuf) (r : Words4) (s t : State) : Prop :=
  s.AfterIssue p cd.rk .ok t ∧ holdsResponse cd.rk r t.ctl.resp ∧
    t.hist = s.hist ++ [.arm .write bc bs (pathOf buf s.cfg), .cmd p cd] ++
      (List.range bc.toNat).map (fun i => Event.blockOut i (s.targetBytes buf (i * bs.toNat) bs.toNat)) ++
      irqEvents s.cfg ++ [.resp .ok (specifiedWords cd.rk .ok r)] ∧
    t.de = ⟨false, .write, 0, bs, pathOf buf s.cfg, BitVec.ofNat 32 (bc.toNat * bs.toNat)⟩ ∧
    t.seq = s.seq ∧ s.SameMemory t

/-! ### Card commands (30_encoding.md R105) -/

/-- The descriptors of the commands without data that keep nothing of the response in the sequencer (41_card_commands.md R150 to R152,
R159, R162, R163, R170, R171). -/
def plainCommand : Instr → Option Descriptor
  | .goIdleState => some ⟨.none, .none, 0, 0⟩
  | .sendIfCond => some ⟨.r7, .none, 8, 0x1AA⟩
  | .appCmd rca => some ⟨.r1, .none, 55, rca ++ 0#16⟩
  | .selectCard rca => some ⟨.r1b, .none, 7, rca ++ 0#16⟩
  | .switch index value => some ⟨.r1b, .none, 6, 3#8 ++ index ++ value ++ 0#8⟩
  | .sendStatus rca => some ⟨.r1, .none, 13, rca ++ 0#16⟩
  | .setBlockCount count => some ⟨.r1, .none, 23, 0#16 ++ count⟩
  | .stopTransmission => some ⟨.r1b, .none, 12, 0⟩
  | _ => none

/-- Descriptor, block count, block size and buffer of the data commands (41_card_commands.md R160, R161, R166 to R169). -/
def dataCommandOf (s : State) : Instr → Option (Descriptor × BitVec 16 × BitVec 16 × PrimBuf)
  | .sendExtCsd => some (⟨.r1, .read, 8, 0⟩, 1, 512, .scratch)
  | .switchFunc => some (⟨.r1, .read, 6, 0x80FFFFF1⟩, 1, s.cfg.switchStatusSize, .scratch)
  | .readSingleBlock arg => some (⟨.r1, .read, 17, arg⟩, 1, 512, primBuf s.seq.op.buf)
  | .readMultipleBlock arg => some (⟨.r1, .read, 18, arg⟩, s.seq.op.count, 512, primBuf s.seq.op.buf)
  | .writeBlock arg => some (⟨.r1, .write, 24, arg⟩, 1, 512, primBuf s.seq.op.buf)
  | .writeMultipleBlock arg => some (⟨.r1, .write, 25, arg⟩, s.seq.op.count, 512, primBuf s.seq.op.buf)
  | _ => none

/-! ### Requests and labels -/

/-- The device number of a port (10_state.md R21). -/
def devNumOf : Port → BitVec 8
  | .p0 => 0
  | .p1 => 1

/-- The next step is the sequencer's step at label `l`. -/
def State.At (l : Label) (s : State) : Prop := s.fetch = none ∧ s.seq.busy = true ∧ s.ctl.busy = false ∧ s.seq.pc = l

/-- The sequencer goes to label `l`. -/
def State.goesTo (u : State) (l : Label) : State := { u with seq := { u.seq with pc := l } }

/-- The sequencer goes to the failure step with error code `e` (43_init_sequence.md R222). -/
def State.failsWith (u : State) (e : ErrorCode) : State :=
  { u with seq := { u.seq with pc := .fail, tmp := { u.seq.tmp with err := e } } }

/-- A transfer past its guards has returned `e` (60_exceptions.md R301): nothing changes but the sequencer, the host's result and the
history; the buffer range of a failed read is unspecified (20_memory.md R79). -/
def State.TransferReturns (e : ErrorCode) (u t : State) : Prop :=
  t.seq.busy = false ∧ t.seq.pc = .idle ∧ t.seq.op = u.seq.op ∧ t.seq.cur = u.seq.cur ∧ t.seq.scratch = u.seq.scratch ∧
    t.host = { u.host with result := some (.status e) } ∧ t.hist = u.hist ++ [.ret u.seq.op.op (.status e)] ∧
    t.slot = u.slot ∧ t.ctl = u.ctl ∧ t.de = u.de ∧ t.pin = u.pin ∧ t.prim = u.prim ∧ t.cfg = u.cfg ∧ t.fetch = u.fetch ∧
    (e = .none ∨ u.seq.op.op ≠ .readSectors → u.SameMemory t) ∧
    u.SameMemoryOutside (bufferBase u.seq.op.buf u.cfg) (u.seq.op.count.toNat * 512) t

/-- `n` steps, one after the other. -/
def runSteps : Nat → State → Step
  | 0, s => .next s
  | n + 1, s => andThen (step s) (runSteps n)

end Sys2Proof.Machine
end

