-- ==== Sys2Proof/Certificates/Slice0/Obligations.lean ====
section
/-! DEFINITION. The statements about the model. `s.At l` says that the next step is the sequencer's step at label `l`. -/

open Sys2Proof Sys2Proof.Machine

/-! ### Encoding (30_encoding.md) -/

/-- R85 to R106: the decoder reads back what the encoder writes, for every operation and every operand, wherever the operation's word may
stand: that is anywhere, but after an accepted CMD55 for the application commands, and not after one for the other commands of index 6 (log
16). -/
def Obligations.DecodeEncode : Prop := ∀ (i : Instr) app, i.selectedAfter app = true → decode app (encode i) = .ok i

/-- R90, R104, R105, R106: a CD word stands for an operation only if every one of its bits is the one the operation's row gives and the word
stands where the operation's word may; likewise an HR word (R86). That a word of SWITCH_FUNC or SWITCH may not stand right after an accepted
CMD55 is the model's strict reading (log 16). -/
def Obligations.DecodedWordsAreExact : Prop :=
  (∀ app w i, decode app (.cd w) = .ok i → encode i = .cd w ∧ i.selectedAfter app = true) ∧
  (∀ app w buf i, decode app (.hr w buf) = .ok i → ∃ b, encode i = .hr w b)

/-- R105, R106: some words of the table, digit by digit; the word of an application command is one only after a CMD55. -/
def Obligations.TableWordsDecode : Prop :=
  decode false (.cd 0x0000_00000000) = .ok .goIdleState ∧
  decode false (.cd 0x1808_000001AA) = .ok .sendIfCond ∧
  decode false (.cd 0x0437_AAAA0000) = .ok (.appCmd 0xAAAA) ∧
  decode true (.cd 0x1029_40300000) = .ok (.sdSendOpCond true 0x3000) ∧
  decode false (.cd 0x1029_40300000) = .error .unlistedCommand ∧
  decode false (.cd 0x0806_03B90100) = .ok (.switch 185 1) ∧
  decode false (.cd 0x0511_00000064) = .ok (.readSingleBlock 100) ∧
  decode false (.hr 0x0701_0003_00000008 (.addr 0x20002000)) = .ok (.writeSectors 1 3 8 (.addr 0x20002000)) ∧
  decode false (.po 0x01_00061A80 .p1 IssueOperands.zero) = .ok (.setClock .p1 400000)

/-- R107, R104, R106: the words that select no operation are refused. That a well-formed CD word which is no row of R105 is refused as a card
command is the model's choice where R107 asks for no meaning (log 25), and so is the strict reading of where an index-6 word may stand (log
16). -/
def Obligations.UndecodableWordsRefused : Prop :=
  ∀ s : State,
    (∀ w buf, s.fetch = some (.hr w buf) → 8 ≤ (w.extractLsb 63 56).toNat →
      step s = .refused (.noHostOp (w.extractLsb 63 56).toNat)) ∧
    (∀ w p x, s.fetch = some (.po w p x) → 0x0C ≤ (w.extractLsb 39 32).toNat →
      step s = .refused (.noPrimOp (w.extractLsb 39 32).toNat)) ∧
    (∀ w, s.fetch = some (.cd w) →
      w.extractLsb 44 42 = 7 ∨ w.extractLsb 41 40 = 3 ∨ w.extractLsb 47 45 ≠ 0 ∨ w.extractLsb 39 38 ≠ 0 →
      step s = .refused .notDescriptor) ∧
    (∀ w p x, s.fetch = some (.po w p x) → w.extractLsb 39 32 = 0 →
      x.cd.extractLsb 44 42 = 7 ∨ x.cd.extractLsb 41 40 = 3 ∨ x.cd.extractLsb 47 45 ≠ 0 ∨ x.cd.extractLsb 39 38 ≠ 0 →
      step s = .refused .notDescriptor) ∧
    (∀ w, s.fetch = some (.cd w) →
      w.extractLsb 44 42 ≠ 7 → w.extractLsb 41 40 ≠ 3 → w.extractLsb 47 45 = 0 → w.extractLsb 39 38 = 0 →
      (∀ i, encode i = .cd w → i.selectedAfter (s.appPending s.seq.cur) = false) →
      step s = .refused .unlistedCommand)

/-! ### One step (10_state.md R34, R35) -/

/-- A presented word that decodes runs as the decoded operation, with the word taken from the interface. That a word is presented in
`fetch`, and is taken before the sequencer's own step, is the model's choice (log 1): the block has no instruction stream (R3, R80). Whether a
CD word follows an accepted CMD55 decides what it stands for (R104, R106). -/
def Obligations.StepRunsDecoded : Prop :=
  ∀ s w i, s.fetch = some w → decode (s.appPending s.seq.cur) w = .ok i → step s = exec i { s with fetch := none }

/-- R34, R326, R12: without a presented word the sequencer runs the step of its label; it does nothing while no request runs, and has no
step while the controller is busy. -/
def Obligations.StepRunsSequencer : Prop :=
  ∀ s : State, s.fetch = none →
    (s.seq.busy = false → step s = .next s) ∧
    (s.seq.busy = true → s.ctl.busy = true → step s = .refused .controllerBusy) ∧
    (s.seq.busy = true → s.ctl.busy = false → step s = stepAt s.seq.pc s)

/-! ### Host requests (46_lifecycle_accessors.md, R200, R250) -/

/-- R200, R250, R75: a request in flight makes every other one refused; otherwise the requests that run label by label are accepted at their
guards. -/
def Obligations.RequestsAreAcceptedOneAtATime : Prop :=
  ∀ (d : BitVec 8) (c : BitVec 16) (n : Word) (buf : HostBuf) (s : State),
    (s.seq.busy = true →
      ∀ i ∈ [Instr.init d c n, .deinit d c n, .getDevInfo d c n, .getCid d c n, .getWriteProtBits d c n, .getSectors d c n,
        .readSectors d c n buf, .writeSectors d c n buf], exec i s = .refused .reentrantRequest) ∧
    (s.seq.busy = false →
      exec (.init d c n) s =
        .next { s with seq := { s.seq with busy := true, op := ⟨.init, d, c, n, .null⟩, pc := .iGuard, polling := false } } ∧
      exec (.readSectors d c n buf) s =
        .next { s with seq := { s.seq with busy := true, op := ⟨.readSectors, d, c, n, buf⟩, pc := .tGuard, polling := false } } ∧
      exec (.writeSectors d c n buf) s =
        .next { s with seq := { s.seq with busy := true, op := ⟨.writeSectors, d, c, n, buf⟩, pc := .tGuard, polling := false } })

/-- R276: `deinit` zeroes the slot and does nothing else; an invalid device number returns INVAL_PARAM. That the request is recorded in
`seq.op` is the model's inference (log 23), and that acceptance clears the bit `polling` is the model's choice (log 9). -/
def Obligations.DeinitZeroesTheSlot : Prop :=
  ∀ (d : BitVec 8) (c : BitVec 16) (n : Word) (s : State), s.seq.busy = false →
    (∀ p, d = devNumOf p → exec (.deinit d c n) s = .next { s with
      slot := s.slot.set p ⟨.absent, 0, 0, 0, 0, ⟨0, 0, 0, 0⟩, 0, 0, .byte⟩
      seq := { s.seq with busy := false, op := ⟨.deinit, d, c, n, .null⟩, pc := .idle, polling := false }
      host := { s.host with result := some (.status .none) }
      hist := s.hist ++ [.ret .deinit (.status .none)] }) ∧
    (1 < d.toNat → exec (.deinit d c n) s = .next { s with
      seq := { s.seq with busy := false, op := ⟨.deinit, d, c, n, .null⟩, pc := .idle, polling := false }
      host := { s.host with result := some (.status .invalParam) }
      hist := s.hist ++ [.ret .deinit (.status .invalParam)] })

/-- R277, R278, R280: the descriptor, the CID and the capacity are copied out; an invalid device number leaves the output operand alone and
has capacity 0. That the request is recorded in `seq.op` is the model's inference (log 23); that acceptance clears the bit `polling` (log 9)
and that the output operands lie in the state's `host` (log 10) are the model's choices. -/
def Obligations.AccessorsCopyOut : Prop :=
  ∀ (d : BitVec 8) (c : BitVec 16) (n : Word) (s : State), s.seq.busy = false →
    (∀ p, d = devNumOf p →
      exec (.getDevInfo d c n) s = .next { s with
        seq := { s.seq with busy := false, op := ⟨.getDevInfo, d, c, n, .null⟩, pc := .idle, polling := false }
        host := { s.host with result := some (.status .none), devInfo := s.slot.get p }
        hist := s.hist ++ [.ret .getDevInfo (.status .none)] } ∧
      exec (.getCid d c n) s = .next { s with
        seq := { s.seq with busy := false, op := ⟨.getCid, d, c, n, .null⟩, pc := .idle, polling := false }
        host := { s.host with result := some (.status .none), cid := (s.slot.get p).cid }
        hist := s.hist ++ [.ret .getCid (.status .none)] } ∧
      exec (.getSectors d c n) s = .next { s with
        seq := { s.seq with busy := false, op := ⟨.getSectors, d, c, n, .null⟩, pc := .idle, polling := false }
        host := { s.host with result := some (.word (s.slot.get p).sectorCount) }
        hist := s.hist ++ [.ret .getSectors (.word (s.slot.get p).sectorCount)] }) ∧
    (1 < d.toNat →
      exec (.getDevInfo d c n) s = .next { s with
        seq := { s.seq with busy := false, op := ⟨.getDevInfo, d, c, n, .null⟩, pc := .idle, polling := false }
        host := { s.host with result := some (.status .invalParam) }
        hist := s.hist ++ [.ret .getDevInfo (.status .invalParam)] } ∧
      exec (.getCid d c n) s = .next { s with
        seq := { s.seq with busy := false, op := ⟨.getCid, d, c, n, .null⟩, pc := .idle, polling := false }
        host := { s.host with result := some (.status .invalParam) }
        hist := s.hist ++ [.ret .getCid (.status .invalParam)] } ∧
      exec (.getSectors d c n) s = .next { s with
        seq := { s.seq with busy := false, op := ⟨.getSectors, d, c, n, .null⟩, pc := .idle, polling := false }
        host := { s.host with result := some (.word 0) }
        hist := s.hist ++ [.ret .getSectors (.word 0)] })

/-- R279: the stored CSD bits with a fresh read of the slider on device 0; all ones, and no pin read, on an absent slot and for an invalid
device number. The pin is read in a state whose levels `samplePins` has brought up to date (log 4); `seq.op` and `polling` are written by
acceptance (logs 23, 9). -/
def Obligations.WriteProtBitsReadTheSlider : Prop :=
  ∀ (d : BitVec 8) (c : BitVec 16) (n : Word) (s : State), s.seq.busy = false →
    (1 < d.toNat ∨ (∃ p, d = devNumOf p ∧ (s.slot.get p).kind = .absent) →
      exec (.getWriteProtBits d c n) s = .next { s with
        seq := { s.seq with busy := false, op := ⟨.getWriteProtBits, d, c, n, .null⟩, pc := .idle, polling := false }
        host := { s.host with result := some (.byte 0xFF) }
        hist := s.hist ++ [.ret .getWriteProtBits (.byte 0xFF)] }) ∧
    (d = 1 → s.slot.p1.kind ≠ .absent →
      exec (.getWriteProtBits d c n) s = .next { s with
        seq := { s.seq with busy := false, op := ⟨.getWriteProtBits, d, c, n, .null⟩, pc := .idle, polling := false }
        host := { s.host with result := some (.byte (s.slot.p1.writeProtect &&& 0b110)) }
        hist := s.hist ++ [.ret .getWriteProtBits (.byte (s.slot.p1.writeProtect &&& 0b110))] }) ∧
    (d = 0 → s.slot.p0.kind ≠ .absent →
      ∃ t, exec (.getWriteProtBits d c n) s = .next t ∧
        (∀ v, v = s.samplePins.pin.wp.p0 →
          t.host = { s.host with result := some (.byte ((s.slot.p0.writeProtect &&& 0b110) ||| (if v then 1 else 0))) } ∧
          t.hist = s.hist ++ [.wpPin .p0 v,
            .ret .getWriteProtBits (.byte ((s.slot.p0.writeProtect &&& 0b110) ||| (if v then 1 else 0)))]) ∧
        t.seq = { s.seq with busy := false, op := ⟨.getWriteProtBits, d, c, n, .null⟩, pc := .idle, polling := false } ∧
        t.slot = s.slot ∧ t.ctl = s.ctl ∧ t.de = s.de ∧ t.pin = s.samplePins.pin ∧ t.prim = s.prim ∧ t.cfg = s.cfg ∧
        s.SameMemory t)

/-- R281, property 2 (R276): after `deinit(p)`, every accessor returns the absent-slot sentinel, and a transfer returns NO_CARD. -/
def Obligations.DeinitLeavesSentinels : Prop :=
  ∀ (p : Port) (c : BitVec 16) (n : Word) (buf : HostBuf) (s t : State), s.seq.busy = false → s.ctl.busy = false → s.fetch = none →
    exec (.deinit (devNumOf p) c n) s = .next t →
    (∃ u, exec (.getDevInfo (devNumOf p) 0 0) t = .next u ∧ u.host.result = some (.status .none) ∧
      u.host.devInfo = ⟨.absent, 0, 0, 0, 0, ⟨0, 0, 0, 0⟩, 0, 0, .byte⟩) ∧
    (∃ u, exec (.getCid (devNumOf p) 0 0) t = .next u ∧ u.host.result = some (.status .none) ∧ u.host.cid = ⟨0, 0, 0, 0⟩) ∧
    (∃ u, exec (.getWriteProtBits (devNumOf p) 0 0) t = .next u ∧ u.host.result = some (.byte 0xFF)) ∧
    (∃ u, exec (.getSectors (devNumOf p) 0 0) t = .next u ∧ u.host.result = some (.word 0)) ∧
    (∃ u, andThen (exec (.readSectors (devNumOf p) c n buf) t) step = .next u ∧ u.host.result = some (.status .noCard) ∧
      u.hist = t.hist ++ [.ret .readSectors (.status .noCard)]) ∧
    (∃ u, andThen (exec (.writeSectors (devNumOf p) c n buf) t) step = .next u ∧ u.host.result = some (.status .noCard) ∧
      u.hist = t.hist ++ [.ret .writeSectors (.status .noCard)])

/-! ### The helpers of the primitive (40_controller_primitive.md R130 to R137) -/

/-- R131, R132, R135: `set_clock` and `set_bus_width` program their port, select it and leave the other port's setting alone; the bus
runs at most at the requested frequency. -/
def Obligations.HelpersProgramOnePort : Prop :=
  (∀ p hz (s : State), hz ≠ 0 → s.ctl.busy = false → s.portOpen p = true →
    ∃ t, exec (.setClock p hz) s = .next t ∧
      t = { s with ctl := t.ctl, hist := s.hist ++ [.setClock p hz], prim := .none } ∧
      t.ctl = { s.ctl with sel := p, clk := t.ctl.clk, clkSet := t.ctl.clkSet } ∧
      t.ctl.clk.get p = hz ∧ t.ctl.clkSet.get p = true ∧
      t.ctl.clk.get p.other = s.ctl.clk.get p.other ∧ t.ctl.clkSet.get p.other = s.ctl.clkSet.get p.other ∧
      t.busClock ≤ hz) ∧
  (∀ p (w : Word) (s : State), w = 1 ∨ w = 4 → s.ctl.busy = false → s.portOpen p = true →
    ∃ t, exec (.setBusWidth p w) s = .next t ∧
      t = { s with ctl := t.ctl, hist := s.hist ++ [.setWidth p (if w = 4 then 4 else 1)], prim := .none } ∧
      t.ctl = { s.ctl with sel := p, width := t.ctl.width, widthSet := t.ctl.widthSet } ∧
      t.ctl.width.get p = (if w = 4 then 4 else 1) ∧ t.ctl.widthSet.get p = true ∧
      t.ctl.width.get p.other = s.ctl.width.get p.other ∧ t.ctl.widthSet.get p.other = s.ctl.widthSet.get p.other ∧
      t.busWidth = t.ctl.width.get p)

/-- R130 to R132, R138, R305, R107: what a helper refuses. The presence pin of an absent slot may be asked for only as the first act of
`init`. -/
def Obligations.HelperContracts : Prop :=
  ∀ p hz (w : Word) (s : State),
    exec (.setClock p 0) s = .refused .clockZero ∧
    (w ≠ 1 → w ≠ 4 → exec (.setBusWidth p w) s = .refused .widthIllegal) ∧
    (s.ctl.busy = true →
      (hz ≠ 0 → exec (.setClock p hz) s = .refused .controllerBusy) ∧
      (w = 1 ∨ w = 4 → exec (.setBusWidth p w) s = .refused .controllerBusy) ∧
      exec (.cardPresent p) s = .refused .controllerBusy ∧ exec (.writeProtectPin p) s = .refused .controllerBusy ∧
      ∀ i ∈ [Instr.cmdResponseR1, .cmdResponseR1b, .cmdResponseR2, .cmdResponseR3, .cmdResponseR6, .cmdResponseR7],
        exec i s = .refused .controllerBusy) ∧
    (s.ctl.busy = false → s.portOpen p = false →
      (hz ≠ 0 → exec (.setClock p hz) s = .refused .portClosed) ∧
      (w = 1 ∨ w = 4 → exec (.setBusWidth p w) s = .refused .portClosed) ∧
      exec (.writeProtectPin p) s = .refused .portClosed ∧
      (¬(s.seq.busy = true ∧ s.seq.op.op = .init ∧ s.seq.pc = .iGuard ∧ s.seq.op.devNum = devNumOf p) →
        exec (.cardPresent p) s = .refused .portClosed))

/-- R133, R134, R46, R305: the pin reads return the level and change no register; port 1 has no slider. The presence pin is read on an open
port, and before the first act of `init`. Where the environment has scripted no new level, the levels stay as they are (log 4). -/
def Obligations.PinReads : Prop :=
  ∀ p (s : State), s.ctl.busy = false →
    (s.portOpen p = true ∨
        (s.seq.busy = true ∧ s.seq.op.op = .init ∧ s.seq.pc = .iGuard ∧ s.seq.op.devNum = devNumOf p) →
      exec (.cardPresent p) s = .next { s.samplePins with
        hist := s.hist ++ [.present p (s.samplePins.pin.present.get p)]
        prim := .bit (s.samplePins.pin.present.get p) }) ∧
    (s.portOpen .p0 = true → exec (.writeProtectPin .p0) s = .next { s.samplePins with
      hist := s.hist ++ [.wpPin .p0 s.samplePins.pin.wp.p0]
      prim := .bit s.samplePins.pin.wp.p0 }) ∧
    (s.portOpen .p1 = true → exec (.writeProtectPin .p1) s = .next { s.samplePins with
      hist := s.hist ++ [.wpPin .p1 false]
      prim := .bit false }) ∧
    (s.env.pins = [] → s.samplePins = s) ∧
    (∀ l rest, s.env.pins = l :: rest → s.samplePins = { s with pin := l, env := { s.env with pins := rest } })

/-- R136: a getter of the kind that `ctl.resp` holds returns the response and changes nothing else; any other returns some value, of which
nothing is said (log 7), and nothing of the block changes either. -/
def Obligations.ResponseGetters : Prop :=
  ∀ s : State, s.ctl.busy = false →
    (∀ i rk, (i, rk) ∈ [(Instr.cmdResponseR1, RespKind.r1), (.cmdResponseR1b, .r1b), (.cmdResponseR3, .r3), (.cmdResponseR6, .r6),
        (.cmdResponseR7, .r7)] →
      (s.ctl.respKind = rk → s.ctl.tstatus = .ok → exec i s = .next { s with prim := .word s.ctl.resp.w0 }) ∧
      (¬(s.ctl.respKind = rk ∧ s.ctl.tstatus = .ok) →
        ∃ v n, exec i s = .next { s with prim := .word v, env := { s.env with draws := n } })) ∧
    (s.ctl.respKind = .r2 → s.ctl.tstatus = .ok →
      exec .cmdResponseR2 s = .next { s with
        prim := .long (s.ctl.resp.w3 ++ s.ctl.resp.w2 ++ s.ctl.resp.w1 ++ s.ctl.resp.w0) }) ∧
    (¬(s.ctl.respKind = .r2 ∧ s.ctl.tstatus = .ok) →
      ∃ v n, exec .cmdResponseR2 s = .next { s with prim := .long v, env := { s.env with draws := n } })

/-- R137, R52: `ctl_reset` clears the named bits, leaves no port programmed (the model's bits, log 6), and touches neither slots, sequencer
nor memory. Nothing is said of the registers it makes unspecified. -/
def Obligations.CtlResetClears : Prop :=
  ∀ s : State, ∃ t, exec .ctlReset s = .next t ∧
    t.ctl.irqPending = false ∧ t.ctl.busy = false ∧ t.de.armed = false ∧
    (∀ p, t.ctl.clkSet.get p = false ∧ t.ctl.widthSet.get p = false) ∧ t.ctl.respKind = .none ∧
    t.hist = s.hist ++ [.ctlReset] ∧
    t.slot = s.slot ∧ t.seq = s.seq ∧ t.pin = s.pin ∧ t.host = s.host ∧ t.cfg = s.cfg ∧ t.fetch = s.fetch ∧ s.SameMemory t ∧
    t.prim = .none

/-! ### `issue` (40_controller_primitive.md R120 to R129) -/

/-- R120, R121, R138, R107, R61, R62, R63, R65, R89: the broken preconditions of `issue`, each with its refusal: the port, an empty
transfer, a window that is misaligned or leaves host memory (the one at `DMA_BASE` for a null buffer), and a transfer longer than the scratch
(log 22). Without data, block count and block size do not matter. -/
def Obligations.IssueContracts : Prop :=
  ∀ p cd bc bs buf (s : State),
    (s.ctl.busy = true → exec (.issue p cd bc bs buf) s = .refused .controllerBusy) ∧
    (s.ctl.busy = false → s.portOpen p = false → exec (.issue p cd bc bs buf) s = .refused .portClosed) ∧
    (s.ctl.busy = false → s.portOpen p = true → (s.ctl.clkSet.get p = false ∨ s.ctl.widthSet.get p = false) →
      exec (.issue p cd bc bs buf) s = .refused .portUnprogrammed) ∧
    (s.ready p = true → cd.dir = .none → ∀ a, buf = .addr a →
      (a % 4 ≠ 0 → exec (.issue p cd bc bs buf) s = .refused .bufferMisaligned) ∧
      (a % 4 = 0 → 2 ^ s.cfg.addrBits ≤ a → exec (.issue p cd bc bs buf) s = .refused .bufferRange)) ∧
    (s.ready p = true → cd.dir ≠ .none →
      (bc = 0 ∨ bs = 0 → exec (.issue p cd bc bs buf) s = .refused .emptyTransfer) ∧
      (bc ≠ 0 → bs ≠ 0 →
        (∀ a, buf = .addr a ∨ (buf = .null ∧ a = s.cfg.dmaBase) →
          (a % 4 ≠ 0 → exec (.issue p cd bc bs buf) s = .refused .bufferMisaligned) ∧
          (a % 4 = 0 → 2 ^ s.cfg.addrBits < a + bc.toNat * bs.toNat →
            exec (.issue p cd bc bs buf) s = .refused .bufferRange)) ∧
        (buf = .scratch → 512 < bc.toNat * bs.toNat → exec (.issue p cd bc bs buf) s = .refused .scratchRange)))

/-- R120 to R129, R141: `issue` on a ready port, with a target that exists, always returns with one of the four transport statuses,
whatever the card answers; it touches nothing but the controller, the engine, the history and its target. -/
def Obligations.IssueReturns : Prop :=
  ∀ p cd bc bs buf (s : State), s.ready p = true →
    (cd.dir = .none → unusedBufferRefusal buf s.cfg = none) →
    (cd.dir ≠ .none → bc ≠ 0 ∧ bs ≠ 0 ∧ bufferRefusal buf (bc.toNat * bs.toNat) s.cfg = none) →
    ∃ t st, exec (.issue p cd bc bs buf) s = .next t ∧ s.AfterIssue p cd.rk st t ∧ t.prim = .issued st t.ctl.resp ∧
      t.seq = { s.seq with scratch := t.seq.scratch } ∧
      (cd.dir ≠ .read → t.seq.scratch = s.seq.scratch ∧ s.SameMemory t) ∧
      (buf ≠ .scratch → t.seq.scratch = s.seq.scratch) ∧
      (buf = .scratch → s.SameMemory t) ∧
      (∀ a, buf = .addr a → s.SameMemoryOutside a (bc.toNat * bs.toNat) t) ∧
      (buf = .null → s.SameMemoryOutside s.cfg.dmaBase (bc.toNat * bs.toNat) t)

/-- R121 to R124, R126, R127, R89: a command without data, on any ready port, whatever block count and block size say. The engine is left
disarmed and no `Arm` event occurs. -/
def Obligations.IssueWithoutData : Prop :=
  ∀ p cd bc bs buf (s : State), s.ready p = true → cd.dir = .none → unusedBufferRefusal buf s.cfg = none →
    ∃ t st words, exec (.issue p cd bc bs buf) s = .next t ∧ s.CommandSent p cd st words { t with prim := s.prim } ∧
      t.prim = .issued st t.ctl.resp ∧ t.seq = s.seq

/-- R122, R125, R127, R66: a read whose blocks are all good stores them one after the other in its target, and leaves every other byte of
memory and scratch alone. That the scratch keeps its bytes past a presented `issue` is the model's choice (log 28). -/
def Obligations.IssueReadsBlocks : Prop :=
  ∀ p cd bc bs buf (s : State) r blocks, s.ready p = true → cd.dir = .read → bc ≠ 0 → bs ≠ 0 →
    bufferRefusal buf (bc.toNat * bs.toNat) s.cfg = none →
    s.CardDelivers cd bc.toNat r blocks → (∀ b ∈ blocks, b.length = bs.toNat) →
    ∃ t, exec (.issue p cd bc bs buf) s = .next t ∧ s.BlocksRead p cd bc bs buf r blocks t ∧ t.prim = .issued .ok t.ctl.resp

/-- R122, R125 to R127, R66: a write whose blocks are all accepted hands the bytes of its buffer, window or scratch to the card in ascending
order and stores nothing. That a write may come from the scratch is log 22. -/
def Obligations.IssueWritesBlocks : Prop :=
  ∀ p cd bc bs buf (s : State) r blocks, s.ready p = true → cd.dir = .write → bc ≠ 0 → bs ≠ 0 →
    bufferRefusal buf (bc.toNat * bs.toNat) s.cfg = none → s.CardDelivers cd bc.toNat r blocks →
    ∃ t, exec (.issue p cd bc bs buf) s = .next t ∧ s.BlocksWritten p cd bc bs buf r t ∧ t.prim = .issued .ok t.ctl.resp

/-- R128(a), R122: a transport failure of the response means no data phase: the engine was armed and is disarmed without moving a
block. -/
def Obligations.FailedResponseMovesNothing : Prop :=
  ∀ p cd bc bs buf (s : State), s.ready p = true → cd.dir ≠ .none → bc ≠ 0 → bs ≠ 0 →
    bufferRefusal buf (bc.toNat * bs.toNat) s.cfg = none → cd.rk ≠ .none →
    ∀ st, (s.nextAnswer, st) ∈ [(CardAnswer.silent, TStatus.timeout), (.badCrc, .crc), (.ctlFail, .fail)] →
    ∃ t, exec (.issue p cd bc bs buf) s = .next t ∧ s.AfterIssue p cd.rk st t ∧
      t.hist = s.hist ++ [.arm cd.dir bc bs (pathOf buf s.cfg), .cmd p cd] ++ irqEvents s.cfg ++ [.resp st []] ∧
      t.de = ⟨false, cd.dir, bc, bs, pathOf buf s.cfg, 0⟩ ∧ t.seq = s.seq ∧ s.SameMemory t ∧ t.env.blocks = s.env.blocks

/-- R128(b), R125, R66: a transfer that fails at block `k` has moved blocks 0 to `k − 1` and no other, whatever its buffer: a read has
stored them in its target, and only a CRC error touches the bytes of block `k` at all; a write has handed them to the card, and no byte of
memory or scratch changes. That the scratch keeps its bytes past a presented `issue` is the model's choice (log 28). -/
def Obligations.FailedBlockStopsTheTransfer : Prop :=
  ∀ p cd bc bs buf (s : State) r (blocks : List (List Byte)) bad st rest, s.ready p = true → bc ≠ 0 → bs ≠ 0 →
    bufferRefusal buf (bc.toNat * bs.toNat) s.cfg = none → s.nextAnswer = .good r → blocks.length < bc.toNat →
    s.env.blocks = blocks.map BlockAnswer.good ++ bad :: rest →
    (bad, st) ∈ [(BlockAnswer.crcError, TStatus.crc), (.timeout, .timeout), (.fail, .fail)] →
    (cd.dir = .read → (∀ b ∈ blocks, b.length = bs.toNat) →
      ∃ t, exec (.issue p cd bc bs buf) s = .next t ∧ s.AfterIssue p cd.rk st t ∧
        t.hist = s.hist ++ [.arm .read bc bs (pathOf buf s.cfg), .cmd p cd] ++ blocks.zipIdx.map (fun x => Event.blockIn x.2 x.1) ++
          irqEvents s.cfg ++ [.resp st []] ∧
        t.de = ⟨false, .read, BitVec.ofNat 16 (bc.toNat - blocks.length), bs, pathOf buf s.cfg,
          BitVec.ofNat 32 (blocks.length * bs.toNat)⟩ ∧
        t.seq = { s.seq with scratch := t.seq.scratch } ∧ t.targetBytes buf 0 (blocks.length * bs.toNat) = blocks.flatten ∧
        s.SameOutsideTarget buf ((blocks.length + 1) * bs.toNat) t ∧
        (st ≠ .crc → s.SameOutsideTarget buf (blocks.length * bs.toNat) t)) ∧
    (cd.dir = .write →
      ∃ t, exec (.issue p cd bc bs buf) s = .next t ∧ s.AfterIssue p cd.rk st t ∧
        t.hist = s.hist ++ [.arm .write bc bs (pathOf buf s.cfg), .cmd p cd] ++
          (List.range blocks.length).map (fun i => Event.blockOut i (s.targetBytes buf (i * bs.toNat) bs.toNat)) ++
          irqEvents s.cfg ++ [.resp st []] ∧
        t.de = ⟨false, .write, BitVec.ofNat 16 (bc.toNat - blocks.length), bs, pathOf buf s.cfg,
          BitVec.ofNat 32 (blocks.length * bs.toNat)⟩ ∧
        t.seq = s.seq ∧ s.SameMemory t)

/-- R334, R335, R77, R297: whatever the card answers, a data command's history is `Arm`, `Cmd`, block events, the interrupt and its
acknowledgement, and the closing `Resp`: no second command, and at most one block event per block. -/
def Obligations.ArmPrecedesDispatch : Prop :=
  ∀ p cd bc bs buf (s t : State), cd.dir ≠ .none → exec (.issue p cd bc bs buf) s = .next t →
    ∃ blocks st words, t.hist = s.hist ++ [.arm cd.dir bc bs (pathOf buf s.cfg), .cmd p cd] ++ blocks ++ irqEvents s.cfg ++
      [.resp st words] ∧ blocks.length ≤ bc.toNat ∧ t.ctl.tstatus = st ∧
      ∀ e ∈ blocks, ∃ i bytes, (e = .blockIn i bytes ∧ cd.dir = .read) ∨ (e = .blockOut i bytes ∧ cd.dir = .write)

/-! ### The card commands (41_card_commands.md) -/

/-- R150 to R152, R159, R162, R163, R170, R171: the eight commands without data that keep nothing: the descriptor of the row is issued on
port `seq.cur`, and the sequencer is left alone. -/
def Obligations.PlainCommands : Prop :=
  ∀ i cd (s : State), plainCommand i = some cd → s.ready s.seq.cur = true →
    ∃ t st words, exec i s = .next t ∧ s.CommandSent s.seq.cur cd st words t ∧ t.seq = s.seq

/-- R154 to R158: the five commands without data that keep something for the sequencer, and only on T_OK: the OCR, the CID, the published
RCA and the CSD from the response; for SET_RELATIVE_ADDR the RCA that is the command's own operand, the model's choice for an operand other
than `MMC_RCA`, which is all that R157 speaks of (log 17). That what a presented word keeps while no request runs stays past its step is
the model's choice (log 30). -/
def Obligations.CapturingCommands : Prop :=
  ∀ s : State, s.ready s.seq.cur = true →
    (∀ vdd, ∃ t st words, exec (.sendOpCond vdd) s = .next t ∧
      s.CommandSent s.seq.cur ⟨.r3, .none, 1, 0x40#8 ++ vdd ++ 0#8⟩ st words t ∧
      t.seq = if st = .ok then { s.seq with tmp := { s.seq.tmp with ocr := t.ctl.resp.w0 } } else s.seq) ∧
    (∃ t st words, exec .allSendCid s = .next t ∧ s.CommandSent s.seq.cur ⟨.r2, .none, 2, 0⟩ st words t ∧
      t.seq = if st = .ok then { s.seq with w := { s.seq.w with cid := parseCid t.ctl.resp } } else s.seq) ∧
    (∃ t st words, exec .sendRelativeAddr s = .next t ∧ s.CommandSent s.seq.cur ⟨.r6, .none, 3, 0⟩ st words t ∧
      t.seq = if st = .ok then { s.seq with w := { s.seq.w with rca := t.ctl.resp.w0.extractLsb 31 16 } } else s.seq) ∧
    (∀ rca, ∃ t st words, exec (.setRelativeAddr rca) s = .next t ∧
      s.CommandSent s.seq.cur ⟨.r1, .none, 3, rca ++ 0#16⟩ st words t ∧
      t.seq = if st = .ok then { s.seq with w := { s.seq.w with rca := rca } } else s.seq) ∧
    (∀ rca, ∃ t st words, exec (.sendCsd rca) s = .next t ∧ s.CommandSent s.seq.cur ⟨.r2, .none, 9, rca ++ 0#16⟩ st words t ∧
      t.seq = if st = .ok then
        { s.seq with
          tmp := { s.seq.tmp with csd := t.ctl.resp.w3 ++ t.ctl.resp.w2 ++ t.ctl.resp.w1 ++ t.ctl.resp.w0 } }
      else s.seq)

/-- R104, R153, R164, R165, R344: the three application commands. The operation sends CMD55 and the command; a failed CMD55 suppresses its
partner. ACMD41 keeps the OCR. The steps of `init` always send the pair. That the operation of a word which stands right after an accepted
CMD55 is the second command alone, and the pair elsewhere, is the model's choice (log 16): R104 defines the pair only. That the OCR which a
presented word keeps while no request runs stays past its step is the model's choice too (log 30). -/
def Obligations.ApplicationCommands : Prop :=
  ∀ s : State, s.ready s.seq.cur = true →
    (∀ hcs vdd, ∃ u t st, sendSdOpCond hcs vdd s = .next t ∧
      s.PairSent ⟨.r3, .none, 41, 0#1 ++ BitVec.ofBool hcs ++ 0#6 ++ vdd ++ 0#8⟩ st u ∧ u.ctl.tstatus = st ∧
      t = { u with seq := if st = .ok then { s.seq with tmp := { s.seq.tmp with ocr := u.ctl.resp.w0 } } else s.seq } ∧
      (s.appPending s.seq.cur = false → exec (.sdSendOpCond hcs vdd) s = .next t)) ∧
    (∃ t st, sendClrCardDetect s = .next t ∧ s.PairSent ⟨.r1, .none, 42, 0⟩ st t ∧ t.seq = s.seq ∧
      (s.appPending s.seq.cur = false → exec .setClrCardDetect s = .next t)) ∧
    (∃ t st, sendSdBusWidth s = .next t ∧ s.PairSent ⟨.r1, .none, 6, 2⟩ st t ∧ t.seq = s.seq ∧
      (s.appPending s.seq.cur = false → exec .acmdSetBusWidth s = .next t)) ∧
    (s.appPending s.seq.cur = true →
      (∀ hcs vdd, ∃ t st words, exec (.sdSendOpCond hcs vdd) s = .next t ∧
        s.CommandSent s.seq.cur ⟨.r3, .none, 41, 0#1 ++ BitVec.ofBool hcs ++ 0#6 ++ vdd ++ 0#8⟩ st words t ∧
        t.seq = if st = .ok then { s.seq with tmp := { s.seq.tmp with ocr := t.ctl.resp.w0 } } else s.seq) ∧
      (∃ t st words, exec .setClrCardDetect s = .next t ∧
        s.CommandSent s.seq.cur ⟨.r1, .none, 42, 0⟩ st words t ∧ t.seq = s.seq) ∧
      (∃ t st words, exec .acmdSetBusWidth s = .next t ∧
        s.CommandSent s.seq.cur ⟨.r1, .none, 6, 2⟩ st words t ∧ t.seq = s.seq))

/-- R160, R161, R166 to R169, R63: the data commands with a card that delivers and accepts: the blocks read lie in the request's buffer (in
the window at `DMA_BASE` for a null one), or in the scratch; the blocks written come from there, and nothing is stored. That the block of a
presented SEND_EXT_CSD or SWITCH_FUNC stays in the scratch, where no step parses it, is the model's choice (log 28). -/
def Obligations.DataCommandResults : Prop :=
  (∀ i cd bc bs buf (s : State) r blocks, dataCommandOf s i = some (cd, bc, bs, buf) → cd.dir = .read →
    s.ready s.seq.cur = true → bc ≠ 0 → bs ≠ 0 → bufferRefusal buf (bc.toNat * bs.toNat) s.cfg = none →
    s.CardDelivers cd bc.toNat r blocks → (∀ b ∈ blocks, b.length = bs.toNat) →
    ∃ t, exec i s = .next t ∧ s.BlocksRead s.seq.cur cd bc bs buf r blocks t ∧ t.prim = s.prim) ∧
  (∀ i cd bc bs buf (s : State) r blocks, dataCommandOf s i = some (cd, bc, bs, buf) → cd.dir = .write →
    s.ready s.seq.cur = true → bc ≠ 0 → bufferRefusal buf (bc.toNat * bs.toNat) s.cfg = none →
    s.CardDelivers cd bc.toNat r blocks →
    ∃ t, exec i s = .next t ∧ s.BlocksWritten s.seq.cur cd bc bs buf r t ∧ t.prim = s.prim)

/-- R160, R161, R166 to R169, R129: the six data commands complete whatever the card answers: no slot, no clock or width register and no
byte of host memory outside the target changes. -/
def Obligations.DataCommandsReturn : Prop :=
  ∀ i cd bc bs buf (s : State), dataCommandOf s i = some (cd, bc, bs, buf) → s.ready s.seq.cur = true → bc ≠ 0 → bs ≠ 0 →
    bufferRefusal buf (bc.toNat * bs.toNat) s.cfg = none →
    ∃ t st, exec i s = .next t ∧ s.AfterIssue s.seq.cur cd.rk st t ∧ t.prim = s.prim ∧
      t.seq = { s.seq with scratch := t.seq.scratch } ∧
      (cd.dir = .write ∨ buf = .scratch → s.SameMemory t) ∧ (buf ≠ .scratch → t.seq.scratch = s.seq.scratch) ∧
      s.SameMemoryOutside (bufferBase s.seq.op.buf s.cfg) (bc.toNat * bs.toNat) t

/-! ### The response parser (42_response_parser.md) -/

/-- R191, R177: the two predicates on a card status word. -/
def Obligations.StatusPredicates : Prop :=
  ∀ s : Word,
    (statusOk s = true ↔ (parseR1 s).err = 0 ∧ (parseR1 s).state = 4) ∧
    (switchOk s = true ↔ statusOk s = true ∧ (parseR1 s).swerr = false) ∧
    ((parseR1 s).err = 0 ↔ ∀ k ∈ [19, 20, 21, 22, 23, 26, 29, 30], s.getLsbD k = false) ∧
    (parseR1 s).state = s.extractLsb 12 9 ∧ (parseR1 s).swerr = s.getLsbD 7 ∧ (parseR1 s).locked = s.getLsbD 25

/-- R183, R27: the CID words are those of the register shifted right by 8, so the top byte is 0. -/
def Obligations.CidIsTheShiftedRegister : Prop :=
  ∀ r : Words4, (parseCid r).toBits = r.toBits >>> 8 ∧ (parseCid r).w3.extractLsb 31 24 = 0

/-- R185, R186: both capacities are exact. Version 1 fits 27 bits, is 0 exactly below 512 bytes, and truncates only for small exponents;
version 2 reaches 2^32 for one field value only. -/
def Obligations.CsdCapacitiesAreExact : Prop :=
  ∀ csd : BitVec 128,
    let bytes := ((csd.extractLsb 73 62).toNat + 1) * 2 ^ ((csd.extractLsb 49 47).toNat + 2) * 2 ^ (csd.extractLsb 83 80).toNat
    sectorsV1 (parseCsd csd) = bytes / 512 ∧ bytes ≤ 2 ^ 36 ∧ sectorsV1 (parseCsd csd) ≤ 2 ^ 27 ∧
      (sectorsV1 (parseCsd csd) = 0 ↔ bytes < 512) ∧ (sectorsV1 (parseCsd csd) * 512 ≠ bytes →
        (csd.extractLsb 49 47).toNat + 2 + (csd.extractLsb 83 80).toNat < 9) ∧
    sectorsV2 (parseCsd csd) = ((csd.extractLsb 69 48).toNat + 1) * 1024 ∧ sectorsV2 (parseCsd csd) ≤ 2 ^ 32 ∧
      (sectorsV2 (parseCsd csd) = 2 ^ 32 ↔ csd.extractLsb 69 48 = 0x3FFFFF)

/-- R187, R216: the capacity that `init` stores is the exact one, it is never wrapped to 32 bits, and on the SD path it is never 0. -/
def Obligations.StoredCapacityIsExact : Prop :=
  ∀ csd mmcPath,
    (∀ n, usableSectors (parseCsd csd) mmcPath = some n →
      ((mmcPath = true ∨ csd.extractLsb 127 126 = 0) → n.toNat = sectorsV1 (parseCsd csd)) ∧
      (mmcPath = false → csd.extractLsb 127 126 = 1 → n.toNat = sectorsV2 (parseCsd csd)) ∧
      (mmcPath = false → n ≠ 0)) ∧
    (usableSectors (parseCsd csd) mmcPath = none ↔ mmcPath = false ∧
      (csd.extractLsb 127 126 = 2 ∨ csd.extractLsb 127 126 = 3 ∨
        (csd.extractLsb 127 126 = 0 ∧ sectorsV1 (parseCsd csd) = 0) ∨
        (csd.extractLsb 127 126 = 1 ∧ csd.extractLsb 69 48 = 0x3FFFFF)))

/-! ### `init`, label by label (43_init_sequence.md, 44_mode_tuning.md) -/

/-- R201, R202, R294: the guards of `init`, in their order: device number, re-entry, presence. That the returns at the guards append `Ret` to
the history like every return is the model's inference (log 23); the pin is read in a state whose levels `samplePins` has brought up to date
(log 4). -/
def Obligations.InitGuards : Prop :=
  ∀ s : State, s.At .iGuard → s.seq.op.op = .init →
    (1 < s.seq.op.devNum.toNat → step s = .next { s with
      seq := { s.seq with busy := false, pc := .idle }
      host := { s.host with result := some (.status .invalParam) }
      hist := s.hist ++ [.ret .init (.status .invalParam)] }) ∧
    (∀ p, s.seq.op.devNum = devNumOf p → (s.slot.get p).kind ≠ .absent → step s = .next { s with
      seq := { s.seq with busy := false, pc := .idle }
      host := { s.host with result := some (.status .initialized) }
      hist := s.hist ++ [.ret .init (.status .initialized)] }) ∧
    (∀ p, s.seq.op.devNum = devNumOf p → (s.slot.get p).kind = .absent → s.samplePins.pin.present.get p = false →
      ∃ t, step s = .next t ∧ t.seq.busy = false ∧ t.seq.pc = .idle ∧ t.seq.cur = p ∧
        t.host = { s.host with result := some (.status .noCard) } ∧
        t.hist = s.hist ++ [.present p false, .ret .init (.status .noCard)] ∧
        t.slot = s.slot ∧ t.ctl = s.ctl ∧ t.de = s.de ∧ s.SameMemory t) ∧
    (∀ p, s.seq.op.devNum = devNumOf p → (s.slot.get p).kind = .absent → s.samplePins.pin.present.get p = true →
      step s = .next { s.samplePins with
        seq :=
          { s.seq with
            cur := p
            w := ⟨.absent, 0, 0, 0, 0, ⟨0, 0, 0, 0⟩, 0, 0, .byte⟩
            tmp := { s.seq.tmp with sd2 := false, mmc := false, legacyProbe := false, hsCap := false }
            pc := .a1 }
        hist := s.hist ++ [.present p true] })

/-- R203 to R205: stage A. The identification clock and the 1-bit bus, on the port and in the working slot; the reset of the card; the probe
of its interface: a matching echo is an SD card of version 2, a mismatch fails, no response is the legacy path, MMC on device 1 and SD first
on device 0. The polling loop that follows starts with a budget of its own (R206, log 15). -/
def Obligations.StageA : Prop :=
  (∀ s : State, s.At .a1 → ∃ t, step s = .next t ∧
    t.ctl.ProgrammedWith s.seq.cur 400000 1 ∧ t.ctl.sel = s.seq.cur ∧
    t.ctl.clk.get s.seq.cur.other = s.ctl.clk.get s.seq.cur.other ∧
    t.ctl.width.get s.seq.cur.other = s.ctl.width.get s.seq.cur.other ∧
    t.seq = { s.seq with w := { s.seq.w with clockHz := 400000, busWidth := 1 }, pc := .a2 } ∧
    t.hist = s.hist ++ [.setClock s.seq.cur 400000, .setWidth s.seq.cur 1] ∧
    t = { s with ctl := t.ctl, seq := t.seq, hist := t.hist }) ∧
  (∀ s u : State,
    (s.At .a2 → exec .goIdleState s = .next u →
      step s = .next (if u.ctl.tstatus = .ok then u.goesTo .a3 else u.failsWith .goIdleState)) ∧
    (s.At .a3 → exec .sendIfCond s = .next u →
      (u.ctl.tstatus = .ok → u.ctl.resp.w0.extractLsb 11 0 = 0x1AA → step s = .next { u.startLoop with
        seq := { u.seq with pc := .bSd, tmp := { u.seq.tmp with sd2 := true } } }) ∧
      (u.ctl.tstatus = .ok → u.ctl.resp.w0.extractLsb 11 0 ≠ 0x1AA → step s = .next (u.failsWith .ifCondResp)) ∧
      (u.ctl.tstatus = .timeout → s.seq.cur = .p1 → step s = .next { u.startLoop with
        seq := { u.seq with pc := .bMmc, tmp := { u.seq.tmp with sd2 := false, mmc := true } } }) ∧
      (u.ctl.tstatus = .timeout → s.seq.cur = .p0 → step s = .next { u.startLoop with
        seq := { u.seq with pc := .bSd, tmp := { u.seq.tmp with sd2 := false, legacyProbe := true } } }) ∧
      (u.ctl.tstatus = .crc ∨ u.ctl.tstatus = .fail → step s = .next (u.failsWith .sendIfCond))))

/-- R206 to R208, R312: one poll of the SD negotiation, with the fallback to MMC on the first legacy poll only, and one poll of the MMC
negotiation. `u.expired` is TIMER's answer, asked only after a card that is not ready; each loop has a budget of its own (log 15). -/
def Obligations.OperatingConditions : Prop :=
  (∀ s u : State, s.At .bSd → sendSdOpCond s.seq.tmp.sd2 s.cfg.vddWindow s = .next u →
    (u.ctl.tstatus = .timeout → s.seq.tmp.legacyProbe = true → step s = .next { u.startLoop with
      seq := { u.seq with pc := .bMmc, tmp := { u.seq.tmp with legacyProbe := false, mmc := true } } }) ∧
    (u.ctl.tstatus ≠ .ok → ¬(u.ctl.tstatus = .timeout ∧ s.seq.tmp.legacyProbe = true) → step s = .next { u with
      seq := { u.seq with pc := .fail, tmp := { u.seq.tmp with legacyProbe := false, err := .sendOpCond } } }) ∧
    (u.ctl.tstatus = .ok → u.ctl.resp.w0.getLsbD 31 = true → step s = .next { u with
      seq := { u.seq with pc := .bDone, tmp := { u.seq.tmp with legacyProbe := false } } }) ∧
    (u.ctl.tstatus = .ok → u.ctl.resp.w0.getLsbD 31 = false → u.expired = true → step s = .next { u.dropTimer with
      seq := { u.seq with pc := .fail, tmp := { u.seq.tmp with legacyProbe := false, err := .opCondTmout } } }) ∧
    (u.ctl.tstatus = .ok → u.ctl.resp.w0.getLsbD 31 = false → u.expired = false → step s = .next { u.dropTimer with
      seq := { u.seq with pc := .bSd, tmp := { u.seq.tmp with legacyProbe := false } } })) ∧
  (∀ s u : State, s.At .bMmc → exec (.sendOpCond s.cfg.vddWindow) s = .next u →
    (u.ctl.tstatus ≠ .ok → step s = .next (u.failsWith .sendOpCond)) ∧
    (u.ctl.tstatus = .ok → u.ctl.resp.w0.getLsbD 31 = true → step s = .next (u.goesTo .bDone)) ∧
    (u.ctl.tstatus = .ok → u.ctl.resp.w0.getLsbD 31 = false → u.expired = true →
      step s = .next (u.dropTimer.failsWith .opCondTmout)) ∧
    (u.ctl.tstatus = .ok → u.ctl.resp.w0.getLsbD 31 = false → u.expired = false → step s = .next (u.dropTimer.goesTo .bMmc)))

/-- R209: an OCR without overlap with the host voltage mask fails with VOLT_SUPPORT, and only such an OCR. -/
def Obligations.VoltageMustOverlap : Prop :=
  ∀ s : State, s.At .bDone →
    (s.seq.tmp.ocr &&& (0#8 ++ s.cfg.vddWindow ++ 0#8) = 0 → step s = .next (s.failsWith .voltSupport)) ∧
    (s.seq.tmp.ocr &&& (0#8 ++ s.cfg.vddWindow ++ 0#8) ≠ 0 → ∃ t, step s = .next t ∧ t.seq.pc = .c1)

/-- R210, R211, R22: the capacity class and the kind, from the OCR, the path taken and the HCS bit; SDUC is never selected. -/
def Obligations.KindFromOcr : Prop :=
  ∀ s : State, s.At .bDone → s.seq.tmp.ocr &&& (0#8 ++ s.cfg.vddWindow ++ 0#8) ≠ 0 →
    (s.seq.tmp.mmc = true → s.seq.tmp.ocr.extractLsb 30 29 = 2 → step s = .next { s with
      seq := { s.seq with pc := .c1, w := { s.seq.w with kind := .mmchc, addressing := .block } } }) ∧
    (s.seq.tmp.mmc = true → s.seq.tmp.ocr.extractLsb 30 29 ≠ 2 → step s = .next { s with
      seq := { s.seq with pc := .c1, w := { s.seq.w with kind := .mmc, addressing := .byte } } }) ∧
    (s.seq.tmp.mmc = false → s.seq.tmp.sd2 = true → s.seq.tmp.ocr.getLsbD 30 = true → step s = .next { s with
      seq := { s.seq with pc := .c1, w := { s.seq.w with kind := .sdhc, addressing := .block } } }) ∧
    (s.seq.tmp.mmc = false → (s.seq.tmp.sd2 = false ∨ s.seq.tmp.ocr.getLsbD 30 = false) → step s = .next { s with
      seq := { s.seq with pc := .c1, w := { s.seq.w with kind := .sdsc, addressing := .byte } } })

/-- R212, R213, R218: identification: the CID, then the RCA, which the host assigns to an MMC and an SD card publishes; selection: a
locked card fails with LOCKED, and an MMC goes on to its EXT_CSD. -/
def Obligations.IdentifyAndSelect : Prop :=
  ∀ s u : State,
    (s.At .c1 → exec .allSendCid s = .next u →
      step s = .next (if u.ctl.tstatus = .ok then u.goesTo .c2 else u.failsWith .allSendCid)) ∧
    (s.At .c2 → exec (if s.seq.tmp.mmc then .setRelativeAddr s.cfg.mmcRca else .sendRelativeAddr) s = .next u →
      step s = .next (if u.ctl.tstatus = .ok then u.goesTo .d1 else u.failsWith .setSendRca)) ∧
    (s.At .e1 → exec (.selectCard s.seq.w.rca) s = .next u →
      (u.ctl.tstatus ≠ .ok → step s = .next (u.failsWith .selectCard)) ∧
      (u.ctl.tstatus = .ok → u.ctl.resp.w0.getLsbD 25 = true → step s = .next (u.failsWith .locked)) ∧
      (u.ctl.tstatus = .ok → u.ctl.resp.w0.getLsbD 25 = false →
        step s = .next (u.goesTo (if s.seq.tmp.mmc then .f1 else .gHs))))

/-- R214 to R217: the default clock, then the CSD of the addressed card; its command classes, write-protect bits with the slider on device
0 only, and capacity go to the working slot, and an unusable capacity fails with SEND_CSD. -/
def Obligations.CsdStep : Prop :=
  ∀ s m u : State, s.At .d1 →
    m = { s with
      ctl := { s.ctl with
        sel := s.seq.cur, clk := s.ctl.clk.set s.seq.cur 25000000, clkSet := s.ctl.clkSet.set s.seq.cur true }
      seq := { s.seq with w := { s.seq.w with clockHz := 25000000 } }
      hist := s.hist ++ [.setClock s.seq.cur 25000000] } →
    exec (.sendCsd s.seq.w.rca) m = .next u →
    (u.ctl.tstatus ≠ .ok → step s = .next (u.failsWith .sendCsd)) ∧
    (u.ctl.tstatus = .ok → ∃ t slider, step s = .next t ∧
      slider = (match s.seq.cur with
        | .p0 => u.samplePins.pin.wp.p0
        | .p1 => false) ∧
      t.hist = u.hist ++ (match s.seq.cur with
        | .p0 => [.wpPin .p0 slider]
        | .p1 => []) ∧
      t.ctl = u.ctl ∧ t.slot = u.slot ∧ t.de = u.de ∧ t.host = u.host ∧ t.mem = u.mem ∧
      (match usableSectors (parseCsd u.seq.tmp.csd) s.seq.tmp.mmc with
      | some n => t.seq = { u.seq with
          pc := .e1
          w := { u.seq.w with
            ccc := u.seq.tmp.csd.extractLsb 95 84
            writeProtect := 0#5 ++ u.seq.tmp.csd.extractLsb 13 13 ++ u.seq.tmp.csd.extractLsb 12 12 ++ BitVec.ofBool slider
            sectorCount := n } }
      | none => t.seq.pc = .fail ∧ t.seq.tmp = { u.seq.tmp with err := .sendCsd }))

/-- R219, R220, R189: a SEC_COUNT that is not 0 overrides the capacity; a capacity still 0 fails with SEND_EXT_CSD; bits 1:0 of CARD_TYPE
give the high-speed capability. -/
def Obligations.ExtCsdStep : Prop :=
  ∀ s u : State, s.At .f1 → exec .sendExtCsd s = .next u →
    ∃ t, step s = .next t ∧ t.slot = u.slot ∧ t.ctl = u.ctl ∧ t.hist = u.hist ∧ s.SameMemory t ∧
      (u.ctl.tstatus ≠ .ok → t.seq.pc = .fail ∧ t.seq.tmp = { u.seq.tmp with err := .sendExtCsd }) ∧
      (u.ctl.tstatus = .ok →
        let secCount := u.seq.scratch.readByte 215 ++ u.seq.scratch.readByte 214 ++ u.seq.scratch.readByte 213 ++
          u.seq.scratch.readByte 212
        let hsCap := (u.seq.scratch.readByte 196).getLsbD 0 || (u.seq.scratch.readByte 196).getLsbD 1
        let n := if secCount = 0 then u.seq.w.sectorCount else secCount
        (n ≠ 0 → t.seq.pc = .gHs ∧ t.seq.w = { u.seq.w with sectorCount := n } ∧ t.seq.tmp = { u.seq.tmp with hsCap := hsCap }) ∧
        (n = 0 → t.seq.pc = .fail ∧ t.seq.tmp.err = .sendExtCsd))

/-- R236 to R239, R245, R341: high speed. A card that is not capable is sent no command; without confirmation clock and record stay, and
SWITCH_HS is raised only where the controller cannot sustain the default clock; with it, the controller's clock and the working slot
change. -/
def Obligations.HighSpeedStep : Prop :=
  ∀ s : State, s.At .gHs →
    let next : Label := if s.seq.tmp.mmc then .gBw else .gCd
    let unconfirmed (u t : State) : Prop :=
      t.ctl = u.ctl ∧ t.hist = u.hist ∧ t.slot = u.slot ∧ t.mem = u.mem ∧ t.seq.w = u.seq.w ∧
        (s.cfg.sustainsDefaultClock = true → t.seq.pc = next) ∧
        (s.cfg.sustainsDefaultClock = false → t.seq.pc = .fail ∧ t.seq.tmp.err = .switchHs)
    let confirmed (u t : State) : Prop :=
      t.ctl.clk.get s.seq.cur = s.cfg.clkHsHz ∧ t.ctl.clk.get s.seq.cur.other = u.ctl.clk.get s.seq.cur.other ∧
        t.ctl.width = u.ctl.width ∧ t.hist = u.hist ++ [.setClock s.seq.cur s.cfg.clkHsHz] ∧ t.slot = u.slot ∧ t.mem = u.mem ∧
        t.seq.w = { u.seq.w with clockHz := s.cfg.clkHsHz } ∧ t.seq.pc = next
    ((s.seq.tmp.mmc = true ∧ s.seq.tmp.hsCap = false) ∨ (s.seq.tmp.mmc = false ∧ s.seq.w.ccc.getLsbD 10 = false) →
      ∃ t, step s = .next t ∧ unconfirmed s t) ∧
    (∀ u, s.seq.tmp.mmc = false → s.seq.w.ccc.getLsbD 10 = true → exec .switchFunc s = .next u →
      ∃ t, step s = .next t ∧
        (u.ctl.tstatus = .ok ∧ (u.seq.scratch.readByte 16).extractLsb 3 0 = 1 → confirmed u t) ∧
        (¬(u.ctl.tstatus = .ok ∧ (u.seq.scratch.readByte 16).extractLsb 3 0 = 1) → unconfirmed u t)) ∧
    (∀ u, s.seq.tmp.mmc = true → s.seq.tmp.hsCap = true → exec (.switch 185 1) s = .next u →
      (u.ctl.tstatus ≠ .ok → ∃ t, step s = .next t ∧ unconfirmed u t) ∧
      (∀ v, u.ctl.tstatus = .ok → exec (.sendStatus u.seq.w.rca) u = .next v →
        ∃ t, step s = .next t ∧
          (v.ctl.tstatus = .ok ∧ switchOk v.ctl.resp.w0 = true → confirmed v t) ∧
          (¬(v.ctl.tstatus = .ok ∧ switchOk v.ctl.resp.w0 = true) → unconfirmed v t)))

/-- R240 to R243, R245, R342: the card-detect pull-up is released first; then the card switches to 4 bits, the status is checked, and only
then the controller's width register and the working slot change. -/
def Obligations.FourBitSteps : Prop :=
  ∀ s u : State,
    (s.At .gCd → sendClrCardDetect s = .next u →
      step s = .next (if u.ctl.tstatus = .ok then u.goesTo .gBw else u.failsWith .setClrCd)) ∧
    (s.At .gBw → (if s.seq.tmp.mmc then exec (.switch 183 1) s else sendSdBusWidth s) = .next u →
      (u.ctl.tstatus ≠ .ok → step s = .next (u.failsWith .setBusWidth)) ∧
      (∀ v, u.ctl.tstatus = .ok → exec (.sendStatus u.seq.w.rca) u = .next v →
        (v.ctl.tstatus = .ok ∧ (if s.seq.tmp.mmc then switchOk v.ctl.resp.w0 else statusOk v.ctl.resp.w0) = true →
          step s = .next { v with
            ctl := { v.ctl with
              sel := s.seq.cur, width := v.ctl.width.set s.seq.cur 4, widthSet := v.ctl.widthSet.set s.seq.cur true }
            seq := { v.seq with pc := .commit, w := { v.seq.w with busWidth := 4 } }
            hist := v.hist ++ [.setWidth s.seq.cur 4] }) ∧
        (¬(v.ctl.tstatus = .ok ∧ (if s.seq.tmp.mmc then switchOk v.ctl.resp.w0 else statusOk v.ctl.resp.w0) = true) →
          step s = .next (v.failsWith .setBusWidth))))

/-- R221, R32: the commit copies the whole working slot in one step and returns NONE. -/
def Obligations.CommitStep : Prop :=
  ∀ s : State, s.At .commit → ∃ t, step s = .next t ∧
    t.slot.get s.seq.cur = s.seq.w ∧ t.slot.get s.seq.cur.other = s.slot.get s.seq.cur.other ∧
    t.seq.busy = false ∧ t.seq.pc = .idle ∧ t.host = { s.host with result := some (.status .none) } ∧
    t.hist = s.hist ++ [.ret .init (.status .none)] ∧ t.ctl = s.ctl ∧ t.de = s.de ∧ s.SameMemory t ∧ t.fetch = none

/-- R300, R222, R299: the failure path of `init`, from every state: the controller is reset, the slot is zeroed, an initialized other port
is programmed again from its slot, and the error kept in `seq.err` is returned. That the port counts as unprogrammed is the model's bit
(log 6). -/
def Obligations.InitFailurePath : Prop :=
  ∀ s : State, s.At .fail → ∃ t, step s = .next t ∧
    t.slot.get s.seq.cur = ⟨.absent, 0, 0, 0, 0, ⟨0, 0, 0, 0⟩, 0, 0, .byte⟩ ∧
    t.slot.get s.seq.cur.other = s.slot.get s.seq.cur.other ∧
    t.ctl.irqPending = false ∧ t.ctl.busy = false ∧ t.de.armed = false ∧
    t.ctl.clkSet.get s.seq.cur = false ∧ t.ctl.widthSet.get s.seq.cur = false ∧
    t.seq.busy = false ∧ t.seq.pc = .idle ∧
    t.host = { s.host with result := some (.status s.seq.tmp.err) } ∧ s.SameMemory t ∧ t.fetch = none ∧
    ((s.slot.get s.seq.cur.other).kind = .absent →
      t.ctl.clkSet.get s.seq.cur.other = false ∧ t.ctl.widthSet.get s.seq.cur.other = false ∧
      t.hist = s.hist ++ [.ctlReset, .ret .init (.status s.seq.tmp.err)]) ∧
    ((s.slot.get s.seq.cur.other).kind ≠ .absent →
      t.ctl.ProgrammedWith s.seq.cur.other (s.slot.get s.seq.cur.other).clockHz (s.slot.get s.seq.cur.other).busWidth ∧
      t.ctl.sel = s.seq.cur.other ∧
      t.hist = s.hist ++ [.ctlReset, .setClock s.seq.cur.other (s.slot.get s.seq.cur.other).clockHz,
        .setWidth s.seq.cur.other (s.slot.get s.seq.cur.other).busWidth, .ret .init (.status s.seq.tmp.err)])

/-! ### Transfers, label by label (45_block_transfer.md) -/

/-- R251 to R254, R294: the admission checks, in their order; the first that fails decides, no command is sent, and nothing but the
sequencer, the result and the history changes. -/
def Obligations.TransferGuardOrder : Prop :=
  ∀ s : State, s.At .tGuard →
    let r := s.seq.op
    let returns (e : ErrorCode) (cur : Port) : Prop := step s = .next { s with
      seq := { s.seq with cur := cur, busy := false, pc := .idle }
      host := { s.host with result := some (.status e) }
      hist := s.hist ++ [.ret r.op (.status e)] }
    (1 < r.devNum.toNat → returns .invalParam s.seq.cur) ∧
    ∀ p, r.devNum = devNumOf p →
      let sl := s.slot.get p
      let last := r.sect.toNat + r.count.toNat
      (sl.kind = .absent → returns .noCard p) ∧
      (sl.kind ≠ .absent → (r.count = 0 ∨ sl.sectorCount.toNat < last ∨ (sl.addressing = .byte ∧ 2 ^ 31 < last * 512)) →
        returns .invalParam p) ∧
      (sl.kind ≠ .absent → r.count ≠ 0 → last ≤ sl.sectorCount.toNat → ¬(sl.addressing = .byte ∧ 2 ^ 31 < last * 512) →
        r.op ≠ .readSectors → sl.writeProtect ≠ 0 → returns .writeProt p)

/-- R255, R256, R254, R61, R62, R65: an admitted transfer stores the card address, which is exact in 32 bits, and starts with no retry; a buffer
that is not word-aligned or leaves host memory is refused. -/
def Obligations.TransferAdmitted : Prop :=
  ∀ (s : State) p, s.At .tGuard →
    let r := s.seq.op
    let sl := s.slot.get p
    let last := r.sect.toNat + r.count.toNat
    let base := bufferBase r.buf s.cfg
    r.devNum = devNumOf p → sl.kind ≠ .absent → r.count ≠ 0 → last ≤ sl.sectorCount.toNat →
    ¬(sl.addressing = .byte ∧ 2 ^ 31 < last * 512) → (r.op = .readSectors ∨ sl.writeProtect = 0) →
    (base % 4 ≠ 0 → step s = .refused .bufferMisaligned) ∧
    (base % 4 = 0 → 2 ^ s.cfg.addrBits < base + r.count.toNat * 512 → step s = .refused .bufferRange) ∧
    (base % 4 = 0 → base + r.count.toNat * 512 ≤ 2 ^ s.cfg.addrBits → ∃ arg : Word,
      arg.toNat = (match sl.addressing with
        | .block => r.sect.toNat
        | .byte => r.sect.toNat * 512) ∧
      step s = .next { s with seq := { s.seq with cur := p, pc := .tPre, tmp := { s.seq.tmp with arg := arg, retry := 0 } } })

/-- R257, R258, R260: SET_BLOCK_COUNT goes before a multi-block transfer to an SD card where the implementation uses it. A data command
that ended well leads to STOP_TRANSMISSION exactly if the transfer is a multi-block one for which SET_BLOCK_COUNT was not used, and one that
failed never leads to label T_STOP. The failure of either command returns SECT_RW. -/
def Obligations.CountAndStopSteps : Prop :=
  ∀ s u : State,
    let multi := 1 < s.seq.op.count.toNat
    let preset := s.cfg.useCmd23 = true ∧ (s.curSlot.kind = .sdsc ∨ s.curSlot.kind = .sdhc) ∧ multi
    let arg := s.seq.tmp.arg
    (s.At .tPre →
      (¬preset → step s = .next (s.goesTo .tData)) ∧
      (preset → exec (.setBlockCount s.seq.op.count) s = .next u →
        (u.ctl.tstatus = .ok → step s = .next (u.goesTo .tData)) ∧
        (u.ctl.tstatus ≠ .ok → ∃ t, step s = .next t ∧ u.TransferReturns .sectRw t))) ∧
    (s.At .tData →
      (s.seq.op.op = .readSectors ∧ exec (if multi then .readMultipleBlock arg else .readSingleBlock arg) s = .next u) ∨
        (s.seq.op.op = .writeSectors ∧ exec (if multi then .writeMultipleBlock arg else .writeBlock arg) s = .next u) →
      (u.ctl.tstatus = .ok → multi ∧ ¬preset → step s = .next (u.goesTo .tStop)) ∧
      (u.ctl.tstatus = .ok → ¬(multi ∧ ¬preset) → step s = .next (u.goesTo .tStatus)) ∧
      (u.ctl.tstatus ≠ .ok → ∃ t, step s = .next t ∧ t.seq.pc ≠ .tStop)) ∧
    (s.At .tStop → exec .stopTransmission s = .next u →
      (u.ctl.tstatus = .ok → step s = .next (u.goesTo .tStatus)) ∧
      (u.ctl.tstatus ≠ .ok → ∃ t, step s = .next t ∧ u.TransferReturns .sectRw t))

/-- R258, R259, R266: the data command that request and count select, and what its end leads to: a read that ended in a CRC error is tried
again while the counter allows, after recovery if it is a multi-block one; a write never. -/
def Obligations.DataStep : Prop :=
  ∀ s u : State, s.At .tData →
    let r := s.seq.op
    let multi := 1 < r.count.toNat
    let read := r.op = .readSectors
    (read ∨ r.op = .writeSectors) →
    (read → multi → exec (.readMultipleBlock s.seq.tmp.arg) s = .next u) →
    (read → ¬multi → exec (.readSingleBlock s.seq.tmp.arg) s = .next u) →
    (¬read → multi → exec (.writeMultipleBlock s.seq.tmp.arg) s = .next u) →
    (¬read → ¬multi → exec (.writeBlock s.seq.tmp.arg) s = .next u) →
    let preset := s.cfg.useCmd23 = true ∧ (s.curSlot.kind = .sdsc ∨ s.curSlot.kind = .sdhc) ∧ multi
    let retries := read ∧ u.ctl.tstatus = .crc ∧ s.seq.tmp.retry < s.cfg.readCrcRetries
    (u.ctl.tstatus = .ok → multi → ¬preset → step s = .next (u.goesTo .tStop)) ∧
    (u.ctl.tstatus = .ok → ¬multi ∨ preset → step s = .next (u.goesTo .tStatus)) ∧
    (retries → multi → step s = .next { u with
      seq := { u.seq with pc := .tRecover, tmp := { u.seq.tmp with retry := s.seq.tmp.retry + 1, err := .none } } }) ∧
    (retries → ¬multi → step s = .next { u with
      seq := { u.seq with pc := .tPre, tmp := { u.seq.tmp with retry := s.seq.tmp.retry + 1, err := .none } } }) ∧
    (u.ctl.tstatus ≠ .ok → ¬retries → multi → step s = .next { u with
      seq := { u.seq with pc := .tRecover, tmp := { u.seq.tmp with err := .sectRw } } }) ∧
    (u.ctl.tstatus ≠ .ok → ¬retries → ¬multi → ∃ t, step s = .next t ∧ u.TransferReturns .sectRw t)

/-- R262, R312: recovery sends STOP_TRANSMISSION once, its result ignored, then polls the status, one poll per step (log 9), until the card is
in `tran`, the poll fails, or the budget of this entry has expired (log 15); then the retry, or the return of the first error. -/
def Obligations.RecoveryStep : Prop :=
  ∀ s u : State, s.At .tRecover →
    (s.seq.polling = false → exec .stopTransmission s = .next u →
      step s = .next { u.startLoop with seq := { u.seq with polling := true } }) ∧
    (s.seq.polling = true → exec (.sendStatus s.curSlot.rca) s = .next u →
      (u.ctl.tstatus = .ok → u.ctl.resp.w0.extractLsb 12 9 ≠ 4 → u.expired = false → step s = .next u.dropTimer) ∧
      (u.ctl.tstatus ≠ .ok ∨ u.ctl.resp.w0.extractLsb 12 9 = 4 → u.seq.tmp.err = .none → step s = .next { u with
        seq := { u.seq with pc := .tPre, polling := false } }) ∧
      (u.ctl.tstatus ≠ .ok ∨ u.ctl.resp.w0.extractLsb 12 9 = 4 → u.seq.tmp.err ≠ .none →
        ∃ t, step s = .next t ∧ u.TransferReturns u.seq.tmp.err t) ∧
      (u.ctl.tstatus = .ok → u.ctl.resp.w0.extractLsb 12 9 ≠ 4 → u.expired = true →
        (u.seq.tmp.err = .none → step s = .next { u.dropTimer with seq := { u.seq with pc := .tPre, polling := false } }) ∧
        (u.seq.tmp.err ≠ .none → ∃ t, step s = .next t ∧ u.TransferReturns u.seq.tmp.err t)))

/-- R263, R294: the status of a transfer: transport, then error bits, then state. -/
def Obligations.FinalStatusStep : Prop :=
  ∀ s u : State, s.At .tStatus → exec (.sendStatus s.curSlot.rca) s = .next u →
    ∃ t e, step s = .next t ∧ u.TransferReturns e t ∧
      (u.ctl.tstatus ≠ .ok → e = .sendStatus) ∧
      (u.ctl.tstatus = .ok → u.ctl.resp.w0 &&& 0x64F80000 ≠ 0 → e = .cardStatus) ∧
      (u.ctl.tstatus = .ok → u.ctl.resp.w0 &&& 0x64F80000 = 0 → u.ctl.resp.w0.extractLsb 12 9 ≠ 4 → e = .sectRw) ∧
      (u.ctl.tstatus = .ok → u.ctl.resp.w0 &&& 0x64F80000 = 0 → u.ctl.resp.w0.extractLsb 12 9 = 4 → e = .none)

/-! ### The whole machine -/

/-- Every step keeps the invariant, whatever operation is presented: slots absent or initialized (10_state.md R31), the working slot as
far as the labels passed have built it, no interrupt pending and no engine armed between steps (R43 to R45), legal clocks and widths (R39,
R40), memory in its canonical form. -/
def Obligations.StepKeepsSound : Prop := ∀ s t : State, s.Sound → step s = .next t → t.Sound

/-- R53, R49: every step of a machine that is driven by host requests keeps every initialized slot's clock and width in its port's
registers, and leaves no CMD55 outstanding. -/
def Obligations.StepKeepsCoherent : Prop :=
  ∀ s t : State, s.Coherent → s.HostOnly → step s = .next t → t.Coherent

/-- The state after reset meets both invariants. R52 gives the slots, the idle sequencer, the absent interrupt and the disarmed engine; that
its memory lists nothing is the model's choice (log 8), and that no port counts as programmed is how the model says that R52 leaves
clock and width unspecified (log 6). -/
def Obligations.ResetIsCoherent : Prop := State.reset.Coherent

/-- R21, R32, R33: in a sound state a slot changes only by COMMIT, which copies the working slot, by the failure step and by `deinit`, which
zero it. -/
def Obligations.SlotsChangeOnlyInInitAndDeinit : Prop :=
  ∀ (s t : State) d, s.Sound → step s = .next t → t.slot.get d ≠ s.slot.get d →
    (s.fetch = none ∧ s.seq.busy = true ∧ s.seq.cur = d ∧ s.seq.pc = .commit ∧ t.slot.get d = s.seq.w) ∨
    (s.fetch = none ∧ s.seq.busy = true ∧ s.seq.cur = d ∧ s.seq.pc = .fail ∧ t.slot.get d = Slot.zero) ∨
    (∃ w c n, s.fetch = some w ∧ decode (s.appPending s.seq.cur) w = .ok (.deinit (devNumOf d) c n) ∧ s.seq.busy = false ∧ t.slot.get d = Slot.zero)

/-- R264, R301: no step of a transfer writes a slot or a clock or width register, whatever the card answers; property 6. -/
def Obligations.TransfersOnlyReadTheSlot : Prop :=
  ∀ s t : State, s.fetch = none → s.seq.busy = true → s.seq.pc = .tGuard ∨ s.seq.pc.inTransfer = true → step s = .next t →
    t.slot = s.slot ∧ t.ctl.clk = s.ctl.clk ∧ t.ctl.width = s.ctl.width ∧ t.ctl.clkSet = s.ctl.clkSet ∧
      t.ctl.widthSet = s.ctl.widthSet

/-- R304, R31, R206, R311, R312: from a coherent state a request in flight always has a next step, except where the host's buffer is none that
R62 and R65 allow; every polling loop is left after some number of steps, whatever the card answers; and no sound state faults. -/
def Obligations.RequestsAlwaysStep : Prop :=
  (∀ s : State, s.Coherent → s.ConfigUsable → s.fetch = none →
    (s.seq.pc = .tGuard → rangeRefusal (bufferBase s.seq.op.buf s.cfg) (s.seq.op.count.toNat * 512) s.cfg = none) →
    ∃ t, step s = .next t) ∧
  (∀ s : State, s.Coherent → s.fetch = none → s.seq.busy = true → s.seq.pc ∈ [Label.bSd, .bMmc, .tRecover] →
    ∃ n t, runSteps n s = .next t ∧ t.seq.pc ≠ s.seq.pc) ∧
  (∀ (s : State) f, s.Sound → step s ≠ .fault f)

/-- R271(a), R267, R76: a single-block read from request to return, on any coherent machine whose slot admits it and any card that delivers
the block and then reports no error in state `tran`: the buffer holds the block, every other byte and every slot is unchanged, and NONE is
returned. -/
def Obligations.SingleBlockReadReturnsTheBlock : Prop :=
  ∀ (s : State) p (sect : Word) (a : Nat) r1 r2 blk answers blocks,
    s.Coherent → s.seq.busy = false → (s.slot.get p).kind ≠ .absent →
    sect.toNat + 1 ≤ (s.slot.get p).sectorCount.toNat →
    ¬((s.slot.get p).addressing = .byte ∧ 2 ^ 31 < (sect.toNat + 1) * 512) →
    a % 4 = 0 → a + 512 ≤ 2 ^ s.cfg.addrBits →
    s.fetch = some (.hr (6#8 ++ devNumOf p ++ 1#16 ++ sect) (.addr a)) →
    s.env.answers = .good r1 :: .good r2 :: answers → s.env.blocks = .good blk :: blocks → blk.length = 512 →
    statusOk r2.w0 = true →
    ∃ t arg, runSteps 5 s = .next t ∧ t.seq.busy = false ∧ t.seq.pc = .idle ∧ t.host = { s.host with result := some (.status .none) } ∧
      t.mem.readBytes a 512 = blk ∧ s.SameMemoryOutside a 512 t ∧ t.slot = s.slot ∧
      t.hist = s.hist ++
        [.arm .read 1 512 (.buffer a), .cmd p ⟨.r1, .read, 17, arg⟩, .blockIn 0 blk] ++ irqEvents s.cfg ++ [.resp .ok [r1.w0]] ++
        [.cmd p ⟨.r1, .none, 13, (s.slot.get p).rca ++ 0#16⟩] ++ irqEvents s.cfg ++ [.resp .ok [r2.w0]] ++
        [.ret .readSectors (.status .none)] ∧
      arg.toNat = (match (s.slot.get p).addressing with
        | .block => sect.toNat
        | .byte => sect.toNat * 512)

/-- R254, R258, R259, R263, R74: a single-block write from request to return, on any coherent machine whose slot admits it and any card that accepts the
block and then reports no error in state `tran`: the block sent is the one in the buffer, no byte of memory and no slot changes, and NONE is
returned. -/
def Obligations.SingleBlockWriteSendsTheBuffer : Prop :=
  ∀ (s : State) p (sect : Word) (a : Nat) r1 r2 bytes answers blocks busy,
    s.Coherent → s.seq.busy = false → (s.slot.get p).kind ≠ .absent → (s.slot.get p).writeProtect = 0 →
    sect.toNat + 1 ≤ (s.slot.get p).sectorCount.toNat →
    ¬((s.slot.get p).addressing = .byte ∧ 2 ^ 31 < (sect.toNat + 1) * 512) →
    a % 4 = 0 → a + 512 ≤ 2 ^ s.cfg.addrBits →
    s.fetch = some (.hr (7#8 ++ devNumOf p ++ 1#16 ++ sect) (.addr a)) →
    s.env.answers = .good r1 :: .good r2 :: answers → s.env.blocks = .good bytes :: blocks → s.env.busy = .released :: busy →
    statusOk r2.w0 = true →
    ∃ t arg, runSteps 5 s = .next t ∧ t.seq.busy = false ∧ t.seq.pc = .idle ∧ t.host = { s.host with result := some (.status .none) } ∧
      s.SameMemory t ∧ t.slot = s.slot ∧
      t.hist = s.hist ++
        [.arm .write 1 512 (.buffer a), .cmd p ⟨.r1, .write, 24, arg⟩, .blockOut 0 (s.mem.readBytes a 512)] ++
        irqEvents s.cfg ++ [.resp .ok [r1.w0]] ++
        [.cmd p ⟨.r1, .none, 13, (s.slot.get p).rca ++ 0#16⟩] ++ irqEvents s.cfg ++ [.resp .ok [r2.w0]] ++
        [.ret .writeSectors (.status .none)] ∧
      arg.toNat = (match (s.slot.get p).addressing with
        | .block => sect.toNat
        | .byte => sect.toNat * 512)

/-- R224, R221, R203 to R207, R209 to R218, R236, R239 to R243 (the path of an SD card of version 2 without command class 10): `init` on any
coherent idle machine, an absent slot with a card in its port, and a card that answers every command well: the commands are those of R224 in
its order, NONE is returned, the slot holds what the card and the slider reported, attribute by attribute, at 25 MHz and 4 bits, and the other
slot is as before. -/
def Obligations.InitBringsUpAnSdCard : Prop :=
  ∀ (s : State) p r0 echo app1 ocr cid rca csd sel app2 acmd42 app3 acmd6 status answers busy,
    s.Coherent → s.seq.busy = false → s.slot.get p = Slot.zero → s.env.pins = [] → s.pin.present.get p = true →
    s.fetch = some (.hr (0#8 ++ devNumOf p ++ 0#48) .null) →
    s.env.answers = [.good r0, .good echo, .good app1, .good ocr, .good cid, .good rca, .good csd, .good sel, .good app2, .good acmd42,
      .good app3, .good acmd6, .good status] ++ answers →
    s.env.busy = .released :: busy → s.cfg.sustainsDefaultClock = true →
    echo.w0.extractLsb 11 0 = 0x1AA → ocr.w0.getLsbD 31 = true → ocr.w0.getLsbD 30 = true →
    ocr.w0 &&& (0#8 ++ s.cfg.vddWindow ++ 0#8) ≠ 0 → csd.toBits.extractLsb 127 126 = 1 → csd.toBits.extractLsb 69 48 ≠ 0x3FFFFF →
    csd.toBits.getLsbD 94 = false → sel.w0.getLsbD 25 = false → statusOk status.w0 = true →
    ∃ t, runSteps 15 s = .next t ∧ t.seq.busy = false ∧ t.seq.pc = .idle ∧ t.host = { s.host with result := some (.status .none) } ∧
      t.slot.get p.other = s.slot.get p.other ∧ s.SameMemory t ∧
      t.slot.get p = {
        kind := .sdhc
        writeProtect := 0#5 ++ csd.toBits.extractLsb 13 13 ++ csd.toBits.extractLsb 12 12 ++ BitVec.ofBool (match p with
          | .p0 => s.pin.wp.p0
          | .p1 => false)
        rca := rca.w0.extractLsb 31 16
        sectorCount := BitVec.ofNat 32 (((csd.toBits.extractLsb 69 48).toNat + 1) * 1024)
        clockHz := 25000000
        cid := parseCid cid
        ccc := csd.toBits.extractLsb 95 84
        busWidth := 4
        addressing := .block } ∧
      t.ctl.ProgrammedWith p 25000000 4 ∧
      (t.hist.drop s.hist.length).filterMap (fun e => match e with
        | .cmd q cd => some (q, cd.word)
        | _ => none) =
        [(p, 0x000000000000), (p, 0x1808000001AA), (p, 0x043700000000), (p, (⟨.r3, .none, 41, opCondArg true s.cfg.vddWindow⟩ : Descriptor).word),
          (p, 0x0C0200000000), (p, 0x140300000000), (p, 0x0C09#16 ++ rca.w0.extractLsb 31 16 ++ 0#16),
          (p, 0x0807#16 ++ rca.w0.extractLsb 31 16 ++ 0#16), (p, 0x0437#16 ++ rca.w0.extractLsb 31 16 ++ 0#16), (p, 0x042A00000000),
          (p, 0x0437#16 ++ rca.w0.extractLsb 31 16 ++ 0#16), (p, 0x040600000002), (p, 0x040D#16 ++ rca.w0.extractLsb 31 16 ++ 0#16)]
end

