-- ==== Sys2Proof/Laws/Memory.lean ====
section
/-! SUPPORT. The laws of memory: a read after a write, and the canonical form. -/

namespace Sys2Proof.Machine

/-! ### Reads -/

theorem readByte_of_unlisted (m : Memory) (a : Nat) (h : ∀ c ∈ m, c.1 ≠ a) : m.readByte a = unlistedByte := by
  induction m with
  | nil => rfl
  | cons c m ih =>
    rw [Memory.readByte, if_neg (h c (by simp)), ih fun d hd => h d (by simp [hd])]

theorem readByte_append_left (m n : Memory) (a : Nat) (h : ∀ c ∈ n, c.1 ≠ a) : Memory.readByte (m ++ n) a = m.readByte a := by
  induction m with
  | nil => exact readByte_of_unlisted n a h
  | cons c m ih => simp only [List.cons_append, Memory.readByte, ih]

theorem readByte_append_right (m n : Memory) (a : Nat) (h : ∀ c ∈ m, c.1 ≠ a) : Memory.readByte (m ++ n) a = n.readByte a := by
  induction m with
  | nil => rfl
  | cons c m ih =>
    rw [List.cons_append, Memory.readByte, if_neg (h c (by simp)), ih fun d hd => h d (by simp [hd])]

theorem readByte_filter (m : Memory) (a : Nat) (q : Nat → Bool) (h : q a = true) :
    Memory.readByte (m.filter fun c => q c.1) a = m.readByte a := by
  induction m with
  | nil => rfl
  | cons c m ih =>
    by_cases hc : c.1 = a
    · simp [Memory.readByte, hc, h]
    · cases hq : q c.1 <;> simp [Memory.readByte, hc, hq, ih]

theorem mem_cellsFrom_bounds (a : Nat) (bs : List Byte) (c : Host.Cell) (h : c ∈ cellsFrom a bs) :
    a ≤ c.1 ∧ c.1 < a + bs.length ∧ c.2 ≠ unlistedByte := by
  induction bs generalizing a with
  | nil => simp [cellsFrom] at h
  | cons b bs ih =>
    have shift : c ∈ cellsFrom (a + 1) bs → a ≤ c.1 ∧ c.1 < a + (b :: bs).length ∧ c.2 ≠ unlistedByte := fun hc => by
      obtain ⟨h1, h2, h3⟩ := ih (a + 1) hc
      exact ⟨by omega, by simp only [List.length_cons]; omega, h3⟩
    unfold cellsFrom at h
    split at h
    · exact shift h
    · rcases List.mem_cons.mp h with rfl | hc
      · exact ⟨le_rfl, by simp, ‹_›⟩
      · exact shift hc

theorem readByte_cellsFrom (a : Nat) (bs : List Byte) (x : Nat) (h : x < bs.length) :
    Memory.readByte (cellsFrom a bs) (a + x) = bs[x] := by
  induction bs generalizing a x with
  | nil => simp at h
  | cons b bs ih =>
    have below : ∀ c ∈ cellsFrom (a + 1) bs, c.1 ≠ a := fun c hc => by
      have := (mem_cellsFrom_bounds _ _ _ hc).1
      omega
    unfold cellsFrom
    cases x with
    | zero =>
      split
      · rename_i hb
        simpa [hb] using readByte_of_unlisted _ a below
      · simp [Memory.readByte]
    | succ x =>
      have step := ih (a + 1) x (by simpa using h)
      rw [show a + 1 + x = a + (x + 1) by omega] at step
      split
      · simpa using step
      · rw [Memory.readByte, if_neg (by omega)]
        simpa using step

/-- A byte outside the stored range reads as before. -/
theorem readByte_writeBytes_outside (m : Memory) (a : Nat) (bs : List Byte) (x : Nat) (h : x < a ∨ a + bs.length ≤ x) :
    (m.writeBytes a bs).readByte x = m.readByte x := by
  have notCell : ∀ c ∈ cellsFrom a bs, c.1 ≠ x := fun c hc => by
    have := mem_cellsFrom_bounds _ _ _ hc
    omega
  unfold Memory.writeBytes
  rcases h with h | h
  · rw [readByte_append_left _ _ x, readByte_append_left _ _ x notCell]
    · exact readByte_filter m x (fun k => decide (k < a)) (by simpa using h)
    · intro c hc
      have := (List.mem_filter.mp hc).2
      simp only [decide_eq_true_eq] at this
      omega
  · rw [readByte_append_right _ _ x]
    · exact readByte_filter m x (fun k => decide (a + bs.length ≤ k)) (by simpa using h)
    · intro c hc
      rcases List.mem_append.mp hc with hc | hc
      · have := (List.mem_filter.mp hc).2
        simp only [decide_eq_true_eq] at this
        omega
      · exact notCell c hc

/-- A byte inside the stored range reads as stored. -/
theorem readByte_writeBytes_inside (m : Memory) (a : Nat) (bs : List Byte) (x : Nat) (h : x < bs.length) :
    (m.writeBytes a bs).readByte (a + x) = bs[x] := by
  unfold Memory.writeBytes
  rw [readByte_append_left _ _ (a + x), readByte_append_right _ _ (a + x), readByte_cellsFrom a bs x h]
  · intro c hc
    have := (List.mem_filter.mp hc).2
    simp only [decide_eq_true_eq] at this
    omega
  · intro c hc
    have := (List.mem_filter.mp hc).2
    simp only [decide_eq_true_eq] at this
    omega

@[simp] theorem readBytes_length (m : Memory) (a n : Nat) : (m.readBytes a n).length = n := by simp [Memory.readBytes]

theorem readBytes_getElem (m : Memory) (a n k : Nat) (h : k < (m.readBytes a n).length) :
    (m.readBytes a n)[k] = m.readByte (a + k) := by simp [Memory.readBytes]

/-- A range reads as it was stored. -/
theorem readBytes_writeBytes_same (m : Memory) (a : Nat) (bs : List Byte) : (m.writeBytes a bs).readBytes a bs.length = bs := by
  apply List.ext_getElem
  · simp
  · intro k h1 h2
    rw [readBytes_getElem, readByte_writeBytes_inside m a bs k h2]

/-- Storing nothing changes no byte. -/
theorem readByte_writeBytes_nil (m : Memory) (a x : Nat) : (m.writeBytes a []).readByte x = m.readByte x :=
  readByte_writeBytes_outside m a [] x (by simp only [List.length_nil]; omega)

/-! ### The canonical form -/

theorem wfFrom_iff (m : Memory) (lo hi : Nat) :
    m.wfFrom lo hi = true ↔ m.Pairwise (fun c d => c.1 < d.1) ∧ ∀ c ∈ m, lo ≤ c.1 ∧ c.1 < hi ∧ c.2 ≠ unlistedByte := by
  induction m generalizing lo with
  | nil => simp [Memory.wfFrom]
  | cons c m ih =>
    simp only [Memory.wfFrom, Bool.and_eq_true, decide_eq_true_eq, bne_iff_ne, ih, List.pairwise_cons, List.forall_mem_cons]
    constructor
    · rintro ⟨⟨⟨h1, h2⟩, h3⟩, h4, h5⟩
      exact ⟨⟨fun d hd => (h5 d hd).1, h4⟩, ⟨h1, h2, h3⟩, fun d hd => ⟨by have := (h5 d hd).1; omega, (h5 d hd).2⟩⟩
    · rintro ⟨⟨h1, h2⟩, ⟨h3, h4, h5⟩, h6⟩
      exact ⟨⟨⟨h3, h4⟩, h5⟩, h2, fun d hd => ⟨h1 d hd, (h6 d hd).2⟩⟩

theorem wf_iff (m : Memory) (size : Nat) :
    m.wf size = true ↔ m.Pairwise (fun c d => c.1 < d.1) ∧ ∀ c ∈ m, c.1 < size ∧ c.2 ≠ unlistedByte := by
  rw [Memory.wf, wfFrom_iff]
  simp

theorem cellsFrom_pairwise (a : Nat) (bs : List Byte) : (cellsFrom a bs).Pairwise fun c d => c.1 < d.1 := by
  induction bs generalizing a with
  | nil => simp [cellsFrom]
  | cons b bs ih =>
    unfold cellsFrom
    split
    · exact ih (a + 1)
    · exact List.pairwise_cons.mpr ⟨fun c hc => (mem_cellsFrom_bounds _ _ _ hc).1, ih (a + 1)⟩

/-- Storing inside the memory keeps the canonical form. -/
theorem writeBytes_wf (m : Memory) (size a : Nat) (bs : List Byte) (hm : m.wf size = true) (h : a + bs.length ≤ size) :
    (m.writeBytes a bs).wf size = true := by
  rw [wf_iff] at hm ⊢
  obtain ⟨hp, hb⟩ := hm
  have low : ∀ c ∈ m.filter (fun c => decide (c.1 < a)), c ∈ m ∧ c.1 < a := fun c hc => by
    simpa using List.mem_filter.mp hc
  have high : ∀ c ∈ m.filter (fun c => decide (a + bs.length ≤ c.1)), c ∈ m ∧ a + bs.length ≤ c.1 := fun c hc => by
    simpa using List.mem_filter.mp hc
  unfold Memory.writeBytes
  constructor
  · rw [List.pairwise_append, List.pairwise_append]
    refine ⟨⟨hp.filter _, cellsFrom_pairwise a bs, ?_⟩, hp.filter _, ?_⟩
    · intro c hc d hd
      have := (low c hc).2
      have := (mem_cellsFrom_bounds _ _ _ hd).1
      omega
    · intro c hc d hd
      have hd := (high d hd).2
      rcases List.mem_append.mp hc with hc | hc
      · have := (low c hc).2
        omega
      · have := (mem_cellsFrom_bounds _ _ _ hc).2.1
        omega
  · intro c hc
    rcases List.mem_append.mp hc with hc | hc
    · rcases List.mem_append.mp hc with hc | hc
      · exact hb c (low c hc).1
      · have := mem_cellsFrom_bounds _ _ _ hc
        exact ⟨by omega, this.2.2⟩
    · exact hb c (high c hc).1

/-- A fresh memory is in canonical form. -/
@[simp] theorem nil_wf (size : Nat) : Memory.wf [] size = true := rfl

/-- Memory and scratch are in canonical form after reset. -/
theorem reset_memory_wf : State.reset.mem.wf State.reset.cfg.memBytes = true ∧ State.reset.seq.scratch.wf Config.scratchBytes = true :=
  ⟨rfl, rfl⟩

end Sys2Proof.Machine
end

