-- ==== Sys2Proof/Laws/State.lean ====
section
/-! SUPPORT. One lemma per field per update of the state: what each small update writes, and what it leaves alone. -/

namespace Sys2Proof.Machine

/-! ### Pairs -/

@[simp] theorem pair_get_set_self {α : Type} (x : Pair α) (p : Port) (v : α) : (x.set p v).get p = v := by cases p <;> rfl

theorem pair_get_set_of_ne {α : Type} (x : Pair α) {p q : Port} (v : α) (h : q ≠ p) : (x.set p v).get q = x.get q := by
  cases p <;> cases q <;> first | rfl | exact absurd rfl h

theorem pair_get_set {α : Type} (x : Pair α) (p q : Port) (v : α) : (x.set p v).get q = if q = p then v else x.get q := by
  cases p <;> cases q <;> rfl

@[simp] theorem port_other_ne (p : Port) : p.other ≠ p := by cases p <;> decide

theorem port_eq_other_of_ne {p q : Port} (h : q ≠ p) : q = p.other := by cases p <;> cases q <;> first | rfl | exact absurd rfl h

/-! ### `log` -/

@[simp] theorem log_slot (e : Event) (s : State) : (s.log e).slot = s.slot := rfl
@[simp] theorem log_seq (e : Event) (s : State) : (s.log e).seq = s.seq := rfl
@[simp] theorem log_ctl (e : Event) (s : State) : (s.log e).ctl = s.ctl := rfl
@[simp] theorem log_de (e : Event) (s : State) : (s.log e).de = s.de := rfl
@[simp] theorem log_pin (e : Event) (s : State) : (s.log e).pin = s.pin := rfl
@[simp] theorem log_hist (e : Event) (s : State) : (s.log e).hist = s.hist ++ [e] := rfl
@[simp] theorem log_mem (e : Event) (s : State) : (s.log e).mem = s.mem := rfl
@[simp] theorem log_host (e : Event) (s : State) : (s.log e).host = s.host := rfl
@[simp] theorem log_prim (e : Event) (s : State) : (s.log e).prim = s.prim := rfl
@[simp] theorem log_env (e : Event) (s : State) : (s.log e).env = s.env := rfl
@[simp] theorem log_cfg (e : Event) (s : State) : (s.log e).cfg = s.cfg := rfl
@[simp] theorem log_fetch (e : Event) (s : State) : (s.log e).fetch = s.fetch := rfl

/-! ### `goto` -/

@[simp] theorem goto_slot (l : Label) (s : State) : (s.goto l).slot = s.slot := rfl
@[simp] theorem goto_seq (l : Label) (s : State) : (s.goto l).seq = { s.seq with pc := l } := rfl
@[simp] theorem goto_ctl (l : Label) (s : State) : (s.goto l).ctl = s.ctl := rfl
@[simp] theorem goto_de (l : Label) (s : State) : (s.goto l).de = s.de := rfl
@[simp] theorem goto_pin (l : Label) (s : State) : (s.goto l).pin = s.pin := rfl
@[simp] theorem goto_hist (l : Label) (s : State) : (s.goto l).hist = s.hist := rfl
@[simp] theorem goto_mem (l : Label) (s : State) : (s.goto l).mem = s.mem := rfl
@[simp] theorem goto_host (l : Label) (s : State) : (s.goto l).host = s.host := rfl
@[simp] theorem goto_prim (l : Label) (s : State) : (s.goto l).prim = s.prim := rfl
@[simp] theorem goto_env (l : Label) (s : State) : (s.goto l).env = s.env := rfl
@[simp] theorem goto_cfg (l : Label) (s : State) : (s.goto l).cfg = s.cfg := rfl
@[simp] theorem goto_fetch (l : Label) (s : State) : (s.goto l).fetch = s.fetch := rfl

/-! ### `setW` -/

@[simp] theorem setW_slot (w : Slot) (s : State) : (s.setW w).slot = s.slot := rfl
@[simp] theorem setW_seq (w : Slot) (s : State) : (s.setW w).seq = { s.seq with w := w } := rfl
@[simp] theorem setW_ctl (w : Slot) (s : State) : (s.setW w).ctl = s.ctl := rfl
@[simp] theorem setW_de (w : Slot) (s : State) : (s.setW w).de = s.de := rfl
@[simp] theorem setW_pin (w : Slot) (s : State) : (s.setW w).pin = s.pin := rfl
@[simp] theorem setW_hist (w : Slot) (s : State) : (s.setW w).hist = s.hist := rfl
@[simp] theorem setW_mem (w : Slot) (s : State) : (s.setW w).mem = s.mem := rfl
@[simp] theorem setW_host (w : Slot) (s : State) : (s.setW w).host = s.host := rfl
@[simp] theorem setW_prim (w : Slot) (s : State) : (s.setW w).prim = s.prim := rfl
@[simp] theorem setW_env (w : Slot) (s : State) : (s.setW w).env = s.env := rfl
@[simp] theorem setW_cfg (w : Slot) (s : State) : (s.setW w).cfg = s.cfg := rfl
@[simp] theorem setW_fetch (w : Slot) (s : State) : (s.setW w).fetch = s.fetch := rfl

/-! ### `setTmp` -/

@[simp] theorem setTmp_slot (t : Temps) (s : State) : (s.setTmp t).slot = s.slot := rfl
@[simp] theorem setTmp_seq (t : Temps) (s : State) : (s.setTmp t).seq = { s.seq with tmp := t } := rfl
@[simp] theorem setTmp_ctl (t : Temps) (s : State) : (s.setTmp t).ctl = s.ctl := rfl
@[simp] theorem setTmp_de (t : Temps) (s : State) : (s.setTmp t).de = s.de := rfl
@[simp] theorem setTmp_pin (t : Temps) (s : State) : (s.setTmp t).pin = s.pin := rfl
@[simp] theorem setTmp_hist (t : Temps) (s : State) : (s.setTmp t).hist = s.hist := rfl
@[simp] theorem setTmp_mem (t : Temps) (s : State) : (s.setTmp t).mem = s.mem := rfl
@[simp] theorem setTmp_host (t : Temps) (s : State) : (s.setTmp t).host = s.host := rfl
@[simp] theorem setTmp_prim (t : Temps) (s : State) : (s.setTmp t).prim = s.prim := rfl
@[simp] theorem setTmp_env (t : Temps) (s : State) : (s.setTmp t).env = s.env := rfl
@[simp] theorem setTmp_cfg (t : Temps) (s : State) : (s.setTmp t).cfg = s.cfg := rfl
@[simp] theorem setTmp_fetch (t : Temps) (s : State) : (s.setTmp t).fetch = s.fetch := rfl

/-! ### `setSlot` -/

@[simp] theorem setSlot_slot (p : Port) (v : Slot) (s : State) : (s.setSlot p v).slot = s.slot.set p v := rfl
@[simp] theorem setSlot_seq (p : Port) (v : Slot) (s : State) : (s.setSlot p v).seq = s.seq := rfl
@[simp] theorem setSlot_ctl (p : Port) (v : Slot) (s : State) : (s.setSlot p v).ctl = s.ctl := rfl
@[simp] theorem setSlot_de (p : Port) (v : Slot) (s : State) : (s.setSlot p v).de = s.de := rfl
@[simp] theorem setSlot_pin (p : Port) (v : Slot) (s : State) : (s.setSlot p v).pin = s.pin := rfl
@[simp] theorem setSlot_hist (p : Port) (v : Slot) (s : State) : (s.setSlot p v).hist = s.hist := rfl
@[simp] theorem setSlot_mem (p : Port) (v : Slot) (s : State) : (s.setSlot p v).mem = s.mem := rfl
@[simp] theorem setSlot_host (p : Port) (v : Slot) (s : State) : (s.setSlot p v).host = s.host := rfl
@[simp] theorem setSlot_prim (p : Port) (v : Slot) (s : State) : (s.setSlot p v).prim = s.prim := rfl
@[simp] theorem setSlot_env (p : Port) (v : Slot) (s : State) : (s.setSlot p v).env = s.env := rfl
@[simp] theorem setSlot_cfg (p : Port) (v : Slot) (s : State) : (s.setSlot p v).cfg = s.cfg := rfl
@[simp] theorem setSlot_fetch (p : Port) (v : Slot) (s : State) : (s.setSlot p v).fetch = s.fetch := rfl

/-! ### `bump` -/

@[simp] theorem bump_slot (s : State) : (s.bump).slot = s.slot := rfl
@[simp] theorem bump_seq (s : State) : (s.bump).seq = s.seq := rfl
@[simp] theorem bump_ctl (s : State) : (s.bump).ctl = s.ctl := rfl
@[simp] theorem bump_de (s : State) : (s.bump).de = s.de := rfl
@[simp] theorem bump_pin (s : State) : (s.bump).pin = s.pin := rfl
@[simp] theorem bump_hist (s : State) : (s.bump).hist = s.hist := rfl
@[simp] theorem bump_mem (s : State) : (s.bump).mem = s.mem := rfl
@[simp] theorem bump_host (s : State) : (s.bump).host = s.host := rfl
@[simp] theorem bump_prim (s : State) : (s.bump).prim = s.prim := rfl
@[simp] theorem bump_env (s : State) : (s.bump).env = { s.env with draws := s.env.draws + 1 } := rfl
@[simp] theorem bump_cfg (s : State) : (s.bump).cfg = s.cfg := rfl
@[simp] theorem bump_fetch (s : State) : (s.bump).fetch = s.fetch := rfl

/-! ### `dropAnswer` -/

@[simp] theorem dropAnswer_slot (s : State) : (s.dropAnswer).slot = s.slot := rfl
@[simp] theorem dropAnswer_seq (s : State) : (s.dropAnswer).seq = s.seq := rfl
@[simp] theorem dropAnswer_ctl (s : State) : (s.dropAnswer).ctl = s.ctl := rfl
@[simp] theorem dropAnswer_de (s : State) : (s.dropAnswer).de = s.de := rfl
@[simp] theorem dropAnswer_pin (s : State) : (s.dropAnswer).pin = s.pin := rfl
@[simp] theorem dropAnswer_hist (s : State) : (s.dropAnswer).hist = s.hist := rfl
@[simp] theorem dropAnswer_mem (s : State) : (s.dropAnswer).mem = s.mem := rfl
@[simp] theorem dropAnswer_host (s : State) : (s.dropAnswer).host = s.host := rfl
@[simp] theorem dropAnswer_prim (s : State) : (s.dropAnswer).prim = s.prim := rfl
@[simp] theorem dropAnswer_env (s : State) :
    (s.dropAnswer).env = { s.env with answers := s.env.answers.tail, draws := s.env.draws + 1 } := rfl
@[simp] theorem dropAnswer_cfg (s : State) : (s.dropAnswer).cfg = s.cfg := rfl
@[simp] theorem dropAnswer_fetch (s : State) : (s.dropAnswer).fetch = s.fetch := rfl

/-! ### `dropBlock` -/

@[simp] theorem dropBlock_slot (s : State) : (s.dropBlock).slot = s.slot := rfl
@[simp] theorem dropBlock_seq (s : State) : (s.dropBlock).seq = s.seq := rfl
@[simp] theorem dropBlock_ctl (s : State) : (s.dropBlock).ctl = s.ctl := rfl
@[simp] theorem dropBlock_de (s : State) : (s.dropBlock).de = s.de := rfl
@[simp] theorem dropBlock_pin (s : State) : (s.dropBlock).pin = s.pin := rfl
@[simp] theorem dropBlock_hist (s : State) : (s.dropBlock).hist = s.hist := rfl
@[simp] theorem dropBlock_mem (s : State) : (s.dropBlock).mem = s.mem := rfl
@[simp] theorem dropBlock_host (s : State) : (s.dropBlock).host = s.host := rfl
@[simp] theorem dropBlock_prim (s : State) : (s.dropBlock).prim = s.prim := rfl
@[simp] theorem dropBlock_env (s : State) : (s.dropBlock).env = { s.env with blocks := s.env.blocks.tail, draws := s.env.draws + 1 } := rfl
@[simp] theorem dropBlock_cfg (s : State) : (s.dropBlock).cfg = s.cfg := rfl
@[simp] theorem dropBlock_fetch (s : State) : (s.dropBlock).fetch = s.fetch := rfl

/-! ### `dropBusy` -/

@[simp] theorem dropBusy_slot (s : State) : (s.dropBusy).slot = s.slot := rfl
@[simp] theorem dropBusy_seq (s : State) : (s.dropBusy).seq = s.seq := rfl
@[simp] theorem dropBusy_ctl (s : State) : (s.dropBusy).ctl = s.ctl := rfl
@[simp] theorem dropBusy_de (s : State) : (s.dropBusy).de = s.de := rfl
@[simp] theorem dropBusy_pin (s : State) : (s.dropBusy).pin = s.pin := rfl
@[simp] theorem dropBusy_hist (s : State) : (s.dropBusy).hist = s.hist := rfl
@[simp] theorem dropBusy_mem (s : State) : (s.dropBusy).mem = s.mem := rfl
@[simp] theorem dropBusy_host (s : State) : (s.dropBusy).host = s.host := rfl
@[simp] theorem dropBusy_prim (s : State) : (s.dropBusy).prim = s.prim := rfl
@[simp] theorem dropBusy_env (s : State) : (s.dropBusy).env = { s.env with busy := s.env.busy.tail, draws := s.env.draws + 1 } := rfl
@[simp] theorem dropBusy_cfg (s : State) : (s.dropBusy).cfg = s.cfg := rfl
@[simp] theorem dropBusy_fetch (s : State) : (s.dropBusy).fetch = s.fetch := rfl

/-! ### `dropTimer` -/

@[simp] theorem dropTimer_slot (s : State) : (s.dropTimer).slot = s.slot := rfl
@[simp] theorem dropTimer_seq (s : State) : (s.dropTimer).seq = s.seq := rfl
@[simp] theorem dropTimer_ctl (s : State) : (s.dropTimer).ctl = s.ctl := rfl
@[simp] theorem dropTimer_de (s : State) : (s.dropTimer).de = s.de := rfl
@[simp] theorem dropTimer_pin (s : State) : (s.dropTimer).pin = s.pin := rfl
@[simp] theorem dropTimer_hist (s : State) : (s.dropTimer).hist = s.hist := rfl
@[simp] theorem dropTimer_mem (s : State) : (s.dropTimer).mem = s.mem := rfl
@[simp] theorem dropTimer_host (s : State) : (s.dropTimer).host = s.host := rfl
@[simp] theorem dropTimer_prim (s : State) : (s.dropTimer).prim = s.prim := rfl
@[simp] theorem dropTimer_env (s : State) : (s.dropTimer).env =
    { s.env with
      budget := some (s.budgetLeft - 1)
      timer := if s.env.budget.isNone then s.env.timer.tail else s.env.timer
      draws := s.env.draws + 1 } := rfl
@[simp] theorem dropTimer_cfg (s : State) : (s.dropTimer).cfg = s.cfg := rfl
@[simp] theorem dropTimer_fetch (s : State) : (s.dropTimer).fetch = s.fetch := rfl

/-! ### `startLoop` -/

@[simp] theorem startLoop_slot (s : State) : (s.startLoop).slot = s.slot := rfl
@[simp] theorem startLoop_seq (s : State) : (s.startLoop).seq = s.seq := rfl
@[simp] theorem startLoop_ctl (s : State) : (s.startLoop).ctl = s.ctl := rfl
@[simp] theorem startLoop_de (s : State) : (s.startLoop).de = s.de := rfl
@[simp] theorem startLoop_pin (s : State) : (s.startLoop).pin = s.pin := rfl
@[simp] theorem startLoop_hist (s : State) : (s.startLoop).hist = s.hist := rfl
@[simp] theorem startLoop_mem (s : State) : (s.startLoop).mem = s.mem := rfl
@[simp] theorem startLoop_host (s : State) : (s.startLoop).host = s.host := rfl
@[simp] theorem startLoop_prim (s : State) : (s.startLoop).prim = s.prim := rfl
@[simp] theorem startLoop_env (s : State) : (s.startLoop).env = { s.env with budget := none } := rfl
@[simp] theorem startLoop_cfg (s : State) : (s.startLoop).cfg = s.cfg := rfl
@[simp] theorem startLoop_fetch (s : State) : (s.startLoop).fetch = s.fetch := rfl

/-! ### The last command of the history (30_encoding.md R104) -/

/-- One more event: only a command and the end of one change whether a CMD55 is outstanding. -/
@[simp] theorem log_appPending (e : Event) (s : State) (p : Port) : (s.log e).appPending p = followsAppCmd p (s.appPending p) e := by
  simp [State.appPending, List.foldl_append]

/-- It depends on the history alone. -/
theorem appPending_of_hist {s t : State} (h : t.hist = s.hist) (p : Port) : t.appPending p = s.appPending p := by
  simp [State.appPending, h]

/-! ### TIMER (60_exceptions.md R312) -/

/-- Every answer uses up one of the loop's. -/
@[simp] theorem dropTimer_budgetLeft (s : State) : s.dropTimer.budgetLeft = s.budgetLeft - 1 := rfl

/-- TIMER says that the budget has expired exactly when no "not expired" answer is left. -/
theorem expired_iff (s : State) : s.expired = true ↔ s.budgetLeft = 0 := by simp [State.expired]

/-- Monotone: once expired, always expired. -/
theorem dropTimer_expired (s : State) (h : s.expired = true) : s.dropTimer.expired = true := by
  rw [expired_iff] at h ⊢
  simp [h]

/-! ### `raise` -/

@[simp] theorem raise_slot (e : ErrorCode) (s : State) : (s.raise e).slot = s.slot := rfl
@[simp] theorem raise_seq (e : ErrorCode) (s : State) :
    (s.raise e).seq = { s.seq with tmp := { s.seq.tmp with err := e }, pc := .fail } := rfl
@[simp] theorem raise_ctl (e : ErrorCode) (s : State) : (s.raise e).ctl = s.ctl := rfl
@[simp] theorem raise_de (e : ErrorCode) (s : State) : (s.raise e).de = s.de := rfl
@[simp] theorem raise_pin (e : ErrorCode) (s : State) : (s.raise e).pin = s.pin := rfl
@[simp] theorem raise_hist (e : ErrorCode) (s : State) : (s.raise e).hist = s.hist := rfl
@[simp] theorem raise_mem (e : ErrorCode) (s : State) : (s.raise e).mem = s.mem := rfl
@[simp] theorem raise_host (e : ErrorCode) (s : State) : (s.raise e).host = s.host := rfl
@[simp] theorem raise_prim (e : ErrorCode) (s : State) : (s.raise e).prim = s.prim := rfl
@[simp] theorem raise_env (e : ErrorCode) (s : State) : (s.raise e).env = s.env := rfl
@[simp] theorem raise_cfg (e : ErrorCode) (s : State) : (s.raise e).cfg = s.cfg := rfl
@[simp] theorem raise_fetch (e : ErrorCode) (s : State) : (s.raise e).fetch = s.fetch := rfl

/-! ### `setClockRun` -/

@[simp] theorem setClockRun_slot (p : Port) (hz : Word) (s : State) : (setClockRun p hz s).slot = s.slot := rfl
@[simp] theorem setClockRun_seq (p : Port) (hz : Word) (s : State) : (setClockRun p hz s).seq = s.seq := rfl
@[simp] theorem setClockRun_ctl (p : Port) (hz : Word) (s : State) :
    (setClockRun p hz s).ctl = { s.ctl with sel := p, clk := s.ctl.clk.set p hz, clkSet := s.ctl.clkSet.set p true } := rfl
@[simp] theorem setClockRun_de (p : Port) (hz : Word) (s : State) : (setClockRun p hz s).de = s.de := rfl
@[simp] theorem setClockRun_pin (p : Port) (hz : Word) (s : State) : (setClockRun p hz s).pin = s.pin := rfl
@[simp] theorem setClockRun_hist (p : Port) (hz : Word) (s : State) : (setClockRun p hz s).hist = s.hist ++ [.setClock p hz] := rfl
@[simp] theorem setClockRun_mem (p : Port) (hz : Word) (s : State) : (setClockRun p hz s).mem = s.mem := rfl
@[simp] theorem setClockRun_host (p : Port) (hz : Word) (s : State) : (setClockRun p hz s).host = s.host := rfl
@[simp] theorem setClockRun_prim (p : Port) (hz : Word) (s : State) : (setClockRun p hz s).prim = s.prim := rfl
@[simp] theorem setClockRun_env (p : Port) (hz : Word) (s : State) : (setClockRun p hz s).env = s.env := rfl
@[simp] theorem setClockRun_cfg (p : Port) (hz : Word) (s : State) : (setClockRun p hz s).cfg = s.cfg := rfl
@[simp] theorem setClockRun_fetch (p : Port) (hz : Word) (s : State) : (setClockRun p hz s).fetch = s.fetch := rfl

/-! ### `setWidthRun` -/

@[simp] theorem setWidthRun_slot (p : Port) (w : BitVec 3) (s : State) : (setWidthRun p w s).slot = s.slot := rfl
@[simp] theorem setWidthRun_seq (p : Port) (w : BitVec 3) (s : State) : (setWidthRun p w s).seq = s.seq := rfl
@[simp] theorem setWidthRun_ctl (p : Port) (w : BitVec 3) (s : State) :
    (setWidthRun p w s).ctl = { s.ctl with sel := p, width := s.ctl.width.set p w, widthSet := s.ctl.widthSet.set p true } := rfl
@[simp] theorem setWidthRun_de (p : Port) (w : BitVec 3) (s : State) : (setWidthRun p w s).de = s.de := rfl
@[simp] theorem setWidthRun_pin (p : Port) (w : BitVec 3) (s : State) : (setWidthRun p w s).pin = s.pin := rfl
@[simp] theorem setWidthRun_hist (p : Port) (w : BitVec 3) (s : State) : (setWidthRun p w s).hist = s.hist ++ [.setWidth p w] := rfl
@[simp] theorem setWidthRun_mem (p : Port) (w : BitVec 3) (s : State) : (setWidthRun p w s).mem = s.mem := rfl
@[simp] theorem setWidthRun_host (p : Port) (w : BitVec 3) (s : State) : (setWidthRun p w s).host = s.host := rfl
@[simp] theorem setWidthRun_prim (p : Port) (w : BitVec 3) (s : State) : (setWidthRun p w s).prim = s.prim := rfl
@[simp] theorem setWidthRun_env (p : Port) (w : BitVec 3) (s : State) : (setWidthRun p w s).env = s.env := rfl
@[simp] theorem setWidthRun_cfg (p : Port) (w : BitVec 3) (s : State) : (setWidthRun p w s).cfg = s.cfg := rfl
@[simp] theorem setWidthRun_fetch (p : Port) (w : BitVec 3) (s : State) : (setWidthRun p w s).fetch = s.fetch := rfl

/-! ### `accept` -/

@[simp] theorem accept_slot (r : Request) (l : Label) (s : State) : (accept r l s).slot = s.slot := rfl
@[simp] theorem accept_seq (r : Request) (l : Label) (s : State) :
    (accept r l s).seq = { s.seq with busy := true, op := r, pc := l, polling := false } := rfl
@[simp] theorem accept_ctl (r : Request) (l : Label) (s : State) : (accept r l s).ctl = s.ctl := rfl
@[simp] theorem accept_de (r : Request) (l : Label) (s : State) : (accept r l s).de = s.de := rfl
@[simp] theorem accept_pin (r : Request) (l : Label) (s : State) : (accept r l s).pin = s.pin := rfl
@[simp] theorem accept_hist (r : Request) (l : Label) (s : State) : (accept r l s).hist = s.hist := rfl
@[simp] theorem accept_mem (r : Request) (l : Label) (s : State) : (accept r l s).mem = s.mem := rfl
@[simp] theorem accept_host (r : Request) (l : Label) (s : State) : (accept r l s).host = s.host := rfl
@[simp] theorem accept_prim (r : Request) (l : Label) (s : State) : (accept r l s).prim = s.prim := rfl
@[simp] theorem accept_env (r : Request) (l : Label) (s : State) : (accept r l s).env = s.env := rfl
@[simp] theorem accept_cfg (r : Request) (l : Label) (s : State) : (accept r l s).cfg = s.cfg := rfl
@[simp] theorem accept_fetch (r : Request) (l : Label) (s : State) : (accept r l s).fetch = s.fetch := rfl

/-! ### `hostReturn` -/

@[simp] theorem hostReturn_slot (op : HostOp) (r : Result) (s : State) : (hostReturn op r s).slot = s.slot := rfl
@[simp] theorem hostReturn_seq (op : HostOp) (r : Result) (s : State) :
    (hostReturn op r s).seq = { s.seq with busy := false, pc := .idle } := rfl
@[simp] theorem hostReturn_ctl (op : HostOp) (r : Result) (s : State) : (hostReturn op r s).ctl = s.ctl := rfl
@[simp] theorem hostReturn_de (op : HostOp) (r : Result) (s : State) : (hostReturn op r s).de = s.de := rfl
@[simp] theorem hostReturn_pin (op : HostOp) (r : Result) (s : State) : (hostReturn op r s).pin = s.pin := rfl
@[simp] theorem hostReturn_hist (op : HostOp) (r : Result) (s : State) : (hostReturn op r s).hist = s.hist ++ [.ret op r] := rfl
@[simp] theorem hostReturn_mem (op : HostOp) (r : Result) (s : State) : (hostReturn op r s).mem = s.mem := rfl
@[simp] theorem hostReturn_host (op : HostOp) (r : Result) (s : State) : (hostReturn op r s).host = { s.host with result := some r } := rfl
@[simp] theorem hostReturn_prim (op : HostOp) (r : Result) (s : State) : (hostReturn op r s).prim = s.prim := rfl
@[simp] theorem hostReturn_env (op : HostOp) (r : Result) (s : State) : (hostReturn op r s).env = s.env := rfl
@[simp] theorem hostReturn_cfg (op : HostOp) (r : Result) (s : State) : (hostReturn op r s).cfg = s.cfg := rfl
@[simp] theorem hostReturn_fetch (op : HostOp) (r : Result) (s : State) : (hostReturn op r s).fetch = s.fetch := rfl

/-! ### `forgetRequest` -/

@[simp] theorem forgetRequest_slot (s : State) : (forgetRequest s).slot = s.slot := rfl
@[simp] theorem forgetRequest_seq (s : State) :
    (forgetRequest s).seq = { s.seq with w := Config.unspecified Slot s.env.draws 0, tmp := Config.unspecified Temps s.env.draws 0, polling := false } := rfl
@[simp] theorem forgetRequest_ctl (s : State) : (forgetRequest s).ctl = s.ctl := rfl
@[simp] theorem forgetRequest_de (s : State) : (forgetRequest s).de = s.de := rfl
@[simp] theorem forgetRequest_pin (s : State) : (forgetRequest s).pin = s.pin := rfl
@[simp] theorem forgetRequest_hist (s : State) : (forgetRequest s).hist = s.hist := rfl
@[simp] theorem forgetRequest_mem (s : State) : (forgetRequest s).mem = s.mem := rfl
@[simp] theorem forgetRequest_host (s : State) : (forgetRequest s).host = s.host := rfl
@[simp] theorem forgetRequest_prim (s : State) : (forgetRequest s).prim = s.prim := rfl
@[simp] theorem forgetRequest_env (s : State) : (forgetRequest s).env = { s.env with draws := s.env.draws + 1 } := rfl
@[simp] theorem forgetRequest_cfg (s : State) : (forgetRequest s).cfg = s.cfg := rfl
@[simp] theorem forgetRequest_fetch (s : State) : (forgetRequest s).fetch = s.fetch := rfl

/-! ### `forgetScratch` -/

@[simp] theorem forgetScratch_slot (s : State) : (forgetScratch s).slot = s.slot := rfl
@[simp] theorem forgetScratch_seq (s : State) :
    (forgetScratch s).seq = { s.seq with scratch := s.seq.scratch.writeBytes 0 (s.freeBytes Config.scratchBytes) } := rfl
@[simp] theorem forgetScratch_ctl (s : State) : (forgetScratch s).ctl = s.ctl := rfl
@[simp] theorem forgetScratch_de (s : State) : (forgetScratch s).de = s.de := rfl
@[simp] theorem forgetScratch_pin (s : State) : (forgetScratch s).pin = s.pin := rfl
@[simp] theorem forgetScratch_hist (s : State) : (forgetScratch s).hist = s.hist := rfl
@[simp] theorem forgetScratch_mem (s : State) : (forgetScratch s).mem = s.mem := rfl
@[simp] theorem forgetScratch_host (s : State) : (forgetScratch s).host = s.host := rfl
@[simp] theorem forgetScratch_prim (s : State) : (forgetScratch s).prim = s.prim := rfl
@[simp] theorem forgetScratch_env (s : State) : (forgetScratch s).env = { s.env with draws := s.env.draws + 1 } := rfl
@[simp] theorem forgetScratch_cfg (s : State) : (forgetScratch s).cfg = s.cfg := rfl
@[simp] theorem forgetScratch_fetch (s : State) : (forgetScratch s).fetch = s.fetch := rfl

/-! ### `forgetBuffer` -/

@[simp] theorem forgetBuffer_slot (s : State) : (forgetBuffer s).slot = s.slot := rfl
@[simp] theorem forgetBuffer_seq (s : State) : (forgetBuffer s).seq = s.seq := rfl
@[simp] theorem forgetBuffer_ctl (s : State) : (forgetBuffer s).ctl = s.ctl := rfl
@[simp] theorem forgetBuffer_de (s : State) : (forgetBuffer s).de = s.de := rfl
@[simp] theorem forgetBuffer_pin (s : State) : (forgetBuffer s).pin = s.pin := rfl
@[simp] theorem forgetBuffer_hist (s : State) : (forgetBuffer s).hist = s.hist := rfl
@[simp] theorem forgetBuffer_mem (s : State) :
    (forgetBuffer s).mem = s.mem.writeBytes (bufferBase s.seq.op.buf s.cfg) (s.freeBytes (s.seq.op.count.toNat * 512)) := rfl
@[simp] theorem forgetBuffer_host (s : State) : (forgetBuffer s).host = s.host := rfl
@[simp] theorem forgetBuffer_prim (s : State) : (forgetBuffer s).prim = s.prim := rfl
@[simp] theorem forgetBuffer_env (s : State) : (forgetBuffer s).env = { s.env with draws := s.env.draws + 1 } := rfl
@[simp] theorem forgetBuffer_cfg (s : State) : (forgetBuffer s).cfg = s.cfg := rfl
@[simp] theorem forgetBuffer_fetch (s : State) : (forgetBuffer s).fetch = s.fetch := rfl

/-! ### `forgetResp` -/

@[simp] theorem forgetResp_slot (s : State) : (forgetResp s).slot = s.slot := rfl
@[simp] theorem forgetResp_seq (s : State) : (forgetResp s).seq = s.seq := rfl
@[simp] theorem forgetResp_ctl (s : State) : (forgetResp s).ctl = { s.ctl with resp := Config.unspecified Words4 s.env.draws 0 } := rfl
@[simp] theorem forgetResp_de (s : State) : (forgetResp s).de = s.de := rfl
@[simp] theorem forgetResp_pin (s : State) : (forgetResp s).pin = s.pin := rfl
@[simp] theorem forgetResp_hist (s : State) : (forgetResp s).hist = s.hist := rfl
@[simp] theorem forgetResp_mem (s : State) : (forgetResp s).mem = s.mem := rfl
@[simp] theorem forgetResp_host (s : State) : (forgetResp s).host = s.host := rfl
@[simp] theorem forgetResp_prim (s : State) : (forgetResp s).prim = s.prim := rfl
@[simp] theorem forgetResp_env (s : State) : (forgetResp s).env = { s.env with draws := s.env.draws + 1 } := rfl
@[simp] theorem forgetResp_cfg (s : State) : (forgetResp s).cfg = s.cfg := rfl
@[simp] theorem forgetResp_fetch (s : State) : (forgetResp s).fetch = s.fetch := rfl

/-! ### `beginIssue` -/

@[simp] theorem beginIssue_slot (p : Port) (s : State) : (beginIssue p s).slot = s.slot := rfl
@[simp] theorem beginIssue_seq (p : Port) (s : State) : (beginIssue p s).seq = s.seq := rfl
@[simp] theorem beginIssue_ctl (p : Port) (s : State) : (beginIssue p s).ctl = { s.ctl with busy := true, sel := p } := rfl
@[simp] theorem beginIssue_de (p : Port) (s : State) : (beginIssue p s).de = s.de := rfl
@[simp] theorem beginIssue_pin (p : Port) (s : State) : (beginIssue p s).pin = s.pin := rfl
@[simp] theorem beginIssue_hist (p : Port) (s : State) : (beginIssue p s).hist = s.hist := rfl
@[simp] theorem beginIssue_mem (p : Port) (s : State) : (beginIssue p s).mem = s.mem := rfl
@[simp] theorem beginIssue_host (p : Port) (s : State) : (beginIssue p s).host = s.host := rfl
@[simp] theorem beginIssue_prim (p : Port) (s : State) : (beginIssue p s).prim = s.prim := rfl
@[simp] theorem beginIssue_env (p : Port) (s : State) : (beginIssue p s).env = s.env := rfl
@[simp] theorem beginIssue_cfg (p : Port) (s : State) : (beginIssue p s).cfg = s.cfg := rfl
@[simp] theorem beginIssue_fetch (p : Port) (s : State) : (beginIssue p s).fetch = s.fetch := rfl

/-! ### `advanceEngine` -/

@[simp] theorem advanceEngine_slot (s : State) : (advanceEngine s).slot = s.slot := rfl
@[simp] theorem advanceEngine_seq (s : State) : (advanceEngine s).seq = s.seq := rfl
@[simp] theorem advanceEngine_ctl (s : State) : (advanceEngine s).ctl = s.ctl := rfl
@[simp] theorem advanceEngine_de (s : State) :
    (advanceEngine s).de = { s.de with cursor := s.de.cursor + s.de.blockSize.setWidth 32, blocksLeft := s.de.blocksLeft - 1 } := rfl
@[simp] theorem advanceEngine_pin (s : State) : (advanceEngine s).pin = s.pin := rfl
@[simp] theorem advanceEngine_hist (s : State) : (advanceEngine s).hist = s.hist := rfl
@[simp] theorem advanceEngine_mem (s : State) : (advanceEngine s).mem = s.mem := rfl
@[simp] theorem advanceEngine_host (s : State) : (advanceEngine s).host = s.host := rfl
@[simp] theorem advanceEngine_prim (s : State) : (advanceEngine s).prim = s.prim := rfl
@[simp] theorem advanceEngine_env (s : State) : (advanceEngine s).env = s.env := rfl
@[simp] theorem advanceEngine_cfg (s : State) : (advanceEngine s).cfg = s.cfg := rfl
@[simp] theorem advanceEngine_fetch (s : State) : (advanceEngine s).fetch = s.fetch := rfl

/-! ### Pins -/

@[simp] theorem samplePins_slot (s : State) : s.samplePins.slot = s.slot := by unfold State.samplePins; split <;> rfl
@[simp] theorem samplePins_seq (s : State) : s.samplePins.seq = s.seq := by unfold State.samplePins; split <;> rfl
@[simp] theorem samplePins_ctl (s : State) : s.samplePins.ctl = s.ctl := by unfold State.samplePins; split <;> rfl
@[simp] theorem samplePins_de (s : State) : s.samplePins.de = s.de := by unfold State.samplePins; split <;> rfl
@[simp] theorem samplePins_hist (s : State) : s.samplePins.hist = s.hist := by unfold State.samplePins; split <;> rfl
@[simp] theorem samplePins_mem (s : State) : s.samplePins.mem = s.mem := by unfold State.samplePins; split <;> rfl
@[simp] theorem samplePins_host (s : State) : s.samplePins.host = s.host := by unfold State.samplePins; split <;> rfl
@[simp] theorem samplePins_prim (s : State) : s.samplePins.prim = s.prim := by unfold State.samplePins; split <;> rfl
@[simp] theorem samplePins_cfg (s : State) : s.samplePins.cfg = s.cfg := by unfold State.samplePins; split <;> rfl
@[simp] theorem samplePins_fetch (s : State) : s.samplePins.fetch = s.fetch := by unfold State.samplePins; split <;> rfl

@[simp] theorem presentRun_slot (p : Port) (s : State) : (presentRun p s).slot = s.slot := by simp [presentRun]
@[simp] theorem presentRun_seq (p : Port) (s : State) : (presentRun p s).seq = s.seq := by simp [presentRun]
@[simp] theorem presentRun_ctl (p : Port) (s : State) : (presentRun p s).ctl = s.ctl := by simp [presentRun]
@[simp] theorem presentRun_de (p : Port) (s : State) : (presentRun p s).de = s.de := by simp [presentRun]
@[simp] theorem presentRun_pin (p : Port) (s : State) : (presentRun p s).pin = s.samplePins.pin := rfl
@[simp] theorem presentRun_hist (p : Port) (s : State) : (presentRun p s).hist = s.hist ++ [.present p (s.presentLevel p)] := by simp [presentRun]
@[simp] theorem presentRun_mem (p : Port) (s : State) : (presentRun p s).mem = s.mem := by simp [presentRun]
@[simp] theorem presentRun_host (p : Port) (s : State) : (presentRun p s).host = s.host := by simp [presentRun]
@[simp] theorem presentRun_prim (p : Port) (s : State) : (presentRun p s).prim = s.prim := by simp [presentRun]
@[simp] theorem presentRun_env (p : Port) (s : State) : (presentRun p s).env = s.samplePins.env := rfl
@[simp] theorem presentRun_cfg (p : Port) (s : State) : (presentRun p s).cfg = s.cfg := by simp [presentRun]
@[simp] theorem presentRun_fetch (p : Port) (s : State) : (presentRun p s).fetch = s.fetch := by simp [presentRun]

@[simp] theorem wpPinRun_slot (p : Port) (s : State) : (wpPinRun p s).slot = s.slot := by simp [wpPinRun]
@[simp] theorem wpPinRun_seq (p : Port) (s : State) : (wpPinRun p s).seq = s.seq := by simp [wpPinRun]
@[simp] theorem wpPinRun_ctl (p : Port) (s : State) : (wpPinRun p s).ctl = s.ctl := by simp [wpPinRun]
@[simp] theorem wpPinRun_de (p : Port) (s : State) : (wpPinRun p s).de = s.de := by simp [wpPinRun]
@[simp] theorem wpPinRun_pin (p : Port) (s : State) : (wpPinRun p s).pin = s.samplePins.pin := rfl
@[simp] theorem wpPinRun_hist (p : Port) (s : State) : (wpPinRun p s).hist = s.hist ++ [.wpPin p (s.wpLevel p)] := by simp [wpPinRun]
@[simp] theorem wpPinRun_mem (p : Port) (s : State) : (wpPinRun p s).mem = s.mem := by simp [wpPinRun]
@[simp] theorem wpPinRun_host (p : Port) (s : State) : (wpPinRun p s).host = s.host := by simp [wpPinRun]
@[simp] theorem wpPinRun_prim (p : Port) (s : State) : (wpPinRun p s).prim = s.prim := by simp [wpPinRun]
@[simp] theorem wpPinRun_env (p : Port) (s : State) : (wpPinRun p s).env = s.samplePins.env := rfl
@[simp] theorem wpPinRun_cfg (p : Port) (s : State) : (wpPinRun p s).cfg = s.cfg := by simp [wpPinRun]
@[simp] theorem wpPinRun_fetch (p : Port) (s : State) : (wpPinRun p s).fetch = s.fetch := by simp [wpPinRun]

end Sys2Proof.Machine
end

