-- ==== Sys2Proof/Laws/Issue.lean ====
section
/-! SUPPORT. What `issue` can do: phase by phase what it keeps, then the whole call, once, for the statements to cite. -/

namespace Sys2Proof.Machine

/-! ### Phases 4 to 6 keep everything but the answers, the response words, the target and the engine's counters -/

/-- What a running `issue` carries from phase to phase. -/
structure Carried (s t : State) : Prop where
  slot : t.slot = s.slot
  seq : t.seq = { s.seq with scratch := t.seq.scratch }
  ctl : t.ctl = { s.ctl with resp := t.ctl.resp }
  armed : t.de.armed = s.de.armed
  dir : t.de.dir = s.de.dir
  blockSize : t.de.blockSize = s.de.blockSize
  path : t.de.path = s.de.path
  pin : t.pin = s.pin
  host : t.host = s.host
  prim : t.prim = s.prim
  cfg : t.cfg = s.cfg
  fetch : t.fetch = s.fetch

theorem Carried.rfl' (s : State) : Carried s s :=
  ⟨rfl, rfl, rfl, rfl, rfl, rfl, rfl, rfl, rfl, rfl, rfl, rfl⟩

theorem Carried.trans {s t u : State} (h : Carried s t) (k : Carried t u) : Carried s u where
  slot := k.slot.trans h.slot
  seq := by rw [k.seq, h.seq]
  ctl := by rw [k.ctl, h.ctl]
  armed := k.armed.trans h.armed
  dir := k.dir.trans h.dir
  blockSize := k.blockSize.trans h.blockSize
  path := k.path.trans h.path
  pin := k.pin.trans h.pin
  host := k.host.trans h.host
  prim := k.prim.trans h.prim
  cfg := k.cfg.trans h.cfg
  fetch := k.fetch.trans h.fetch

theorem setResp_carried (rk : RespKind) (r : Words4) (s : State) : Carried s (setResp rk r s) :=
  ⟨rfl, rfl, rfl, rfl, rfl, rfl, rfl, rfl, rfl, rfl, rfl, rfl⟩

theorem dropAnswer_carried (s : State) : Carried s s.dropAnswer := ⟨rfl, rfl, rfl, rfl, rfl, rfl, rfl, rfl, rfl, rfl, rfl, rfl⟩

theorem dropBlock_carried (s : State) : Carried s s.dropBlock := ⟨rfl, rfl, rfl, rfl, rfl, rfl, rfl, rfl, rfl, rfl, rfl, rfl⟩

theorem dropBusy_carried (s : State) : Carried s s.dropBusy := ⟨rfl, rfl, rfl, rfl, rfl, rfl, rfl, rfl, rfl, rfl, rfl, rfl⟩

theorem bump_carried (s : State) : Carried s s.bump := ⟨rfl, rfl, rfl, rfl, rfl, rfl, rfl, rfl, rfl, rfl, rfl, rfl⟩

theorem log_carried (e : Event) (s : State) : Carried s (s.log e) := ⟨rfl, rfl, rfl, rfl, rfl, rfl, rfl, rfl, rfl, rfl, rfl, rfl⟩

theorem advanceEngine_carried (s : State) : Carried s (advanceEngine s) :=
  ⟨rfl, rfl, rfl, rfl, rfl, rfl, rfl, rfl, rfl, rfl, rfl, rfl⟩

theorem writeTarget_carried (bytes : List Byte) (s : State) : Carried s (writeTarget bytes s) := by
  unfold writeTarget
  split <;> exact ⟨rfl, rfl, rfl, rfl, rfl, rfl, rfl, rfl, rfl, rfl, rfl, rfl⟩

theorem receive_carried (rk : RespKind) (a : CardAnswer) (t : State) : Carried t (receive rk a t).1 := by
  unfold receive
  split
  · exact setResp_carried _ _ _
  · cases a
    · exact setResp_carried _ _ _
    · exact .rfl' t
    · exact .rfl' t
    · exact .rfl' t

theorem responsePhase_carried (rk : RespKind) (s : State) : Carried s (responsePhase rk s).1 :=
  (dropAnswer_carried s).trans (receive_carried rk _ _)

/-- What one iteration of the data phase can do (40_controller_primitive.md R125): a good block is moved, a read block to the target;
a CRC error spoils the block's bytes in the target of a read; any other outcome changes nothing. -/
theorem moveBlock_cases (bc : BitVec 16) (s : State) :
    (∃ blk, blk.length = s.de.blockSize.toNat ∧ s.de.dir = .read ∧
      moveBlock bc s = (advanceEngine ((writeTarget blk s.dropBlock.bump).log
        (.blockIn (bc.toNat - s.de.blocksLeft.toNat) blk)), .ok)) ∨
    (s.de.dir ≠ .read ∧
      moveBlock bc s = (advanceEngine (s.dropBlock.log
        (.blockOut (bc.toNat - s.de.blocksLeft.toNat) (readTarget s.dropBlock))), .ok)) ∨
    (s.de.dir = .read ∧ moveBlock bc s = ((writeTarget (s.dropBlock.freeBytes s.de.blockSize.toNat) s.dropBlock).bump, .crc)) ∨
    (∃ st, st ≠ TStatus.ok ∧ moveBlock bc s = (s.dropBlock, st)) := by
  unfold moveBlock
  cases s.nextBlock with
  | good bytes =>
    by_cases h : s.de.dir = .read
    · refine .inl ⟨fitBlock s.dropBlock s.de.blockSize.toNat bytes, ?_, h, by simp [h]⟩
      simp [fitBlock, State.freeBytes]
    · exact .inr (.inl ⟨h, by simp [h]⟩)
  | crcError =>
    by_cases h : s.de.dir = .read
    · exact .inr (.inr (.inl ⟨h, by simp [spoilBlock, h]⟩))
    · exact .inr (.inr (.inr ⟨.crc, by decide, by simp [spoilBlock, h]⟩))
  | timeout => exact .inr (.inr (.inr ⟨.timeout, by decide, rfl⟩))
  | fail => exact .inr (.inr (.inr ⟨.fail, by decide, rfl⟩))

theorem moveBlock_carried (bc : BitVec 16) (s : State) : Carried s (moveBlock bc s).1 := by
  rcases moveBlock_cases bc s with ⟨blk, _, _, h⟩ | ⟨_, h⟩ | ⟨_, h⟩ | ⟨st, _, h⟩ <;> rw [h]
  · exact ((((dropBlock_carried s).trans (bump_carried _)).trans (writeTarget_carried blk _)).trans (log_carried _ _)).trans
      (advanceEngine_carried _)
  · exact ((dropBlock_carried s).trans (log_carried _ _)).trans (advanceEngine_carried _)
  · exact ((dropBlock_carried s).trans (writeTarget_carried _ _)).trans (bump_carried _)
  · exact dropBlock_carried s

theorem moveBlocks_carried (bc : BitVec 16) (n : Nat) (s : State) : Carried s (moveBlocks bc n s).1 := by
  induction n generalizing s with
  | zero => exact .rfl' s
  | succ n ih =>
    simp only [moveBlocks]
    split
    · exact (moveBlock_carried bc s).trans (ih _)
    · exact moveBlock_carried bc s

theorem busyPhase_carried (cd : Descriptor) (s : State) : Carried s (busyPhase cd s).1 := by
  unfold busyPhase
  split
  · exact dropBusy_carried s
  · exact .rfl' s

theorem dataPhase_carried (cd : Descriptor) (bc : BitVec 16) (r : State × TStatus) : Carried r.1 (dataPhase cd bc r).1 := by
  unfold dataPhase
  split
  · exact moveBlocks_carried bc _ _
  · exact .rfl' _

theorem waitPhase_carried (cd : Descriptor) (r : State × TStatus) : Carried r.1 (waitPhase cd r).1 := by
  unfold waitPhase
  split
  · exact busyPhase_carried cd _
  · exact .rfl' _

theorem answered_carried (cd : Descriptor) (bc : BitVec 16) (s : State) : Carried s (answered cd bc s).1 :=
  ((responsePhase_carried cd.rk s).trans (dataPhase_carried cd bc _)).trans (waitPhase_carried cd _)

/-! ### The whole call -/

@[simp] theorem interruptCycle_ctl (s : State) : (interruptCycle s).ctl =
    { s.ctl with irqPending := if s.cfg.hasIrq then false else s.ctl.irqPending } := by
  unfold interruptCycle
  cases s.cfg.hasIrq <;> rfl

/-- What `issue` keeps, and the registers that it always leaves the same way (40_controller_primitive.md R127, R129): it touches no slot,
no pin, no clock and no width, and ends with the controller idle, the interrupt acknowledged and the engine disarmed. -/
structure Issued (p : Port) (s t : State) : Prop where
  slot : t.slot = s.slot
  seq : t.seq = { s.seq with scratch := t.seq.scratch }
  sel : t.ctl.sel = p
  clk : t.ctl.clk = s.ctl.clk
  width : t.ctl.width = s.ctl.width
  clkSet : t.ctl.clkSet = s.ctl.clkSet
  widthSet : t.ctl.widthSet = s.ctl.widthSet
  busy : t.ctl.busy = false
  irq : s.ctl.irqPending = false → t.ctl.irqPending = false
  armed : t.de.armed = false
  pin : t.pin = s.pin
  host : t.host = s.host
  prim : t.prim = s.prim
  cfg : t.cfg = s.cfg
  fetch : t.fetch = s.fetch

theorem dispatched_carriedLike (p : Port) (cd : Descriptor) (bc bs : BitVec 16) (buf : PrimBuf) (s : State) :
    (dispatched p cd bc bs buf s).slot = s.slot ∧ (dispatched p cd bc bs buf s).seq = s.seq ∧
      (dispatched p cd bc bs buf s).ctl = { s.ctl with busy := true, sel := p } ∧
      (dispatched p cd bc bs buf s).pin = s.pin ∧ (dispatched p cd bc bs buf s).host = s.host ∧
      (dispatched p cd bc bs buf s).prim = s.prim ∧ (dispatched p cd bc bs buf s).cfg = s.cfg ∧
      (dispatched p cd bc bs buf s).fetch = s.fetch ∧ (dispatched p cd bc bs buf s).mem = s.mem ∧
      (dispatched p cd bc bs buf s).env = s.env := by
  unfold dispatched armEngine
  split <;> exact ⟨rfl, rfl, rfl, rfl, rfl, rfl, rfl, rfl, rfl, rfl⟩

theorem completeIssue_keeps (rk : RespKind) (st : TStatus) (s : State) :
    (completeIssue rk st s).slot = s.slot ∧ (completeIssue rk st s).seq = s.seq ∧ (completeIssue rk st s).pin = s.pin ∧
      (completeIssue rk st s).host = s.host ∧ (completeIssue rk st s).prim = s.prim ∧ (completeIssue rk st s).cfg = s.cfg ∧
      (completeIssue rk st s).fetch = s.fetch ∧ (completeIssue rk st s).mem = s.mem ∧
      (completeIssue rk st s).de = { s.de with armed := false } := by
  unfold completeIssue interruptCycle
  cases s.cfg.hasIrq <;> cases st <;> exact ⟨rfl, rfl, rfl, rfl, rfl, rfl, rfl, rfl, rfl⟩

theorem completeIssue_ctl (rk : RespKind) (st : TStatus) (s : State) :
    (completeIssue rk st s).ctl.sel = s.ctl.sel ∧ (completeIssue rk st s).ctl.clk = s.ctl.clk ∧
      (completeIssue rk st s).ctl.width = s.ctl.width ∧ (completeIssue rk st s).ctl.clkSet = s.ctl.clkSet ∧
      (completeIssue rk st s).ctl.widthSet = s.ctl.widthSet ∧ (completeIssue rk st s).ctl.busy = false ∧
      (s.ctl.irqPending = false → (completeIssue rk st s).ctl.irqPending = false) ∧
      (completeIssue rk st s).ctl.tstatus = st ∧
      (completeIssue rk st s).ctl.respKind = (if st = .ok then rk else .none) ∧
      (st = .ok → (completeIssue rk st s).ctl.resp = s.ctl.resp) := by
  unfold completeIssue interruptCycle
  cases s.cfg.hasIrq <;> cases st <;> refine ⟨rfl, rfl, rfl, rfl, rfl, rfl, ?_, rfl, rfl, ?_⟩ <;> simp

/-- The spec lemma of a whole `issue`. -/
theorem issueRun_issued (p : Port) (cd : Descriptor) (bc bs : BitVec 16) (buf : PrimBuf) (s : State) :
    Issued p s (issueRun p cd bc bs buf s) := by
  obtain ⟨d1, d2, d3, d4, d5, d6, d7, d8, _, _⟩ := dispatched_carriedLike p cd bc bs buf s
  have c := answered_carried cd bc (dispatched p cd bc bs buf s)
  obtain ⟨k1, k2, k3, k4, k5, k6, k7, _, k9⟩ :=
    completeIssue_keeps cd.rk (answered cd bc (dispatched p cd bc bs buf s)).2 (answered cd bc (dispatched p cd bc bs buf s)).1
  obtain ⟨e1, e2, e3, e4, e5, e6, e7, _, _, _⟩ :=
    completeIssue_ctl cd.rk (answered cd bc (dispatched p cd bc bs buf s)).2 (answered cd bc (dispatched p cd bc bs buf s)).1
  unfold issueRun
  constructor
  · rw [k1, c.slot, d1]
  · rw [k2, c.seq, d2]
  · rw [e1, c.ctl, d3]
  · rw [e2, c.ctl, d3]
  · rw [e3, c.ctl, d3]
  · rw [e4, c.ctl, d3]
  · rw [e5, c.ctl, d3]
  · exact e6
  · intro h
    apply e7
    rw [c.ctl, d3]
    exact h
  · rw [k9]
  · rw [k3, c.pin, d4]
  · rw [k4, c.host, d5]
  · rw [k5, c.prim, d6]
  · rw [k6, c.cfg, d7]
  · rw [k7, c.fetch, d8]

theorem Issued.trans {p q : Port} {s t u : State} (h : Issued p s t) (k : Issued q t u) : Issued q s u where
  slot := k.slot.trans h.slot
  seq := by rw [k.seq, h.seq]
  sel := k.sel
  clk := k.clk.trans h.clk
  width := k.width.trans h.width
  clkSet := k.clkSet.trans h.clkSet
  widthSet := k.widthSet.trans h.widthSet
  busy := k.busy
  irq := fun a => k.irq (h.irq a)
  armed := k.armed
  pin := k.pin.trans h.pin
  host := k.host.trans h.host
  prim := k.prim.trans h.prim
  cfg := k.cfg.trans h.cfg
  fetch := k.fetch.trans h.fetch

/-- What `issue` answers: a refusal where a precondition is broken, else the whole call. -/
theorem issue_cases (p : Port) (cd : Descriptor) (bc bs : BitVec 16) (buf : PrimBuf) (s : State) :
    (∃ r, issueRefusal p cd bc bs buf s = some r ∧ issue p cd bc bs buf s = .refused r) ∨
    (issueRefusal p cd bc bs buf s = none ∧ issue p cd bc bs buf s = .next (issueRun p cd bc bs buf s)) := by
  unfold issue
  cases issueRefusal p cd bc bs buf s with
  | none => exact .inr ⟨rfl, rfl⟩
  | some r => exact .inl ⟨r, rfl, rfl⟩

/-- A command without data runs where its port is ready and its buffer operand keeps its contract. -/
theorem issueRefusal_noData (p : Port) (cd : Descriptor) (bc bs : BitVec 16) (buf : PrimBuf) (s : State) (h : cd.dir = .none)
    (r : s.ready p = true) (k : unusedBufferRefusal buf s.cfg = none) : issueRefusal p cd bc bs buf s = none := by
  simp only [State.ready, Bool.and_eq_true, Bool.not_eq_true'] at r
  simp [issueRefusal, h, r.1.1, r.1.2, r.2, k]

/-- A window inside memory stays inside when it is shortened. -/
theorem rangeRefusal_mono {a m n : Nat} {cfg : Config} (h : m ≤ n) (k : rangeRefusal a n cfg = none) : rangeRefusal a m cfg = none := by
  unfold rangeRefusal at k ⊢
  split at k
  · cases k
  · split at k
    · cases k
    · rw [if_neg ‹_›, if_neg (by omega)]

/-- A data command runs where its port is ready and its target exists. -/
theorem issueRefusal_data (p : Port) (cd : Descriptor) (bc bs : BitVec 16) (buf : PrimBuf) (s : State)
    (r : s.ready p = true) (h1 : bc ≠ 0) (h2 : bs ≠ 0) (h3 : bufferRefusal buf (bc.toNat * bs.toNat) s.cfg = none) :
    issueRefusal p cd bc bs buf s = none := by
  simp only [State.ready, Bool.and_eq_true, Bool.not_eq_true'] at r
  have h1' : ¬bc = 0#16 := h1
  have h2' : ¬bs = 0#16 := h2
  have h4 : unusedBufferRefusal buf s.cfg = none := by
    cases buf with
    | null => rfl
    | addr a => exact rangeRefusal_mono (Nat.zero_le _) h3
    | scratch => rfl
  unfold issueRefusal
  simp [r.1.1, r.1.2, r.2, h1', h2', h3, h4]

/-- A port that may be issued on is ready. -/
theorem ready_of_issueRefusal {p : Port} {cd : Descriptor} {bc bs : BitVec 16} {buf : PrimBuf} {s : State}
    (h : issueRefusal p cd bc bs buf s = none) : s.ready p = true := by
  unfold issueRefusal at h
  unfold State.ready
  revert h
  cases s.ctl.busy <;> cases s.portOpen p <;> cases s.programmed p <;> simp

/-- The application command pair keeps what one `issue` keeps. -/
theorem acmdRun_issued (p : Port) (rca : BitVec 16) (cd : Descriptor) (s : State) : Issued p s (acmdRun p rca cd s) := by
  unfold acmdRun afterAppCmd
  split
  · exact (issueRun_issued _ _ _ _ _ _).trans (issueRun_issued _ _ _ _ _ _)
  · exact issueRun_issued _ _ _ _ _ _

/-! ### Which command was the last one (30_encoding.md R104) -/

theorem moveBlock_appPending (bc : BitVec 16) (s : State) (p : Port) : (moveBlock bc s).1.appPending p = s.appPending p := by
  have target : ∀ blk (t : State), (writeTarget blk t).hist = t.hist := fun blk t => by unfold writeTarget; split <;> rfl
  rcases moveBlock_cases bc s with ⟨blk, _, _, h⟩ | ⟨_, h⟩ | ⟨_, h⟩ | ⟨st, _, h⟩ <;> rw [h]
  · rw [appPending_of_hist (advanceEngine_hist _), log_appPending]
    exact appPending_of_hist (target _ _) p
  · rw [appPending_of_hist (advanceEngine_hist _), log_appPending]
    rfl
  · exact appPending_of_hist (target _ _) p
  · rfl

theorem moveBlocks_appPending (bc : BitVec 16) (n : Nat) (s : State) (p : Port) :
    (moveBlocks bc n s).1.appPending p = s.appPending p := by
  induction n generalizing s with
  | zero => rfl
  | succ n ih =>
    simp only [moveBlocks]
    split
    · rw [ih, moveBlock_appPending]
    · exact moveBlock_appPending bc s p

theorem answered_appPending (cd : Descriptor) (bc : BitVec 16) (s : State) (p : Port) :
    (answered cd bc s).1.appPending p = s.appPending p := by
  have wait : ∀ r : State × TStatus, (waitPhase cd r).1.hist = r.1.hist := fun r => by
    unfold waitPhase busyPhase
    split <;> [split <;> rfl; rfl]
  have data : ∀ r : State × TStatus, (dataPhase cd bc r).1.appPending p = r.1.appPending p := fun r => by
    unfold dataPhase
    split
    · exact moveBlocks_appPending bc _ _ p
    · rfl
  have resp : (responsePhase cd.rk s).1.hist = s.hist := by
    unfold responsePhase receive
    split
    · rfl
    · cases s.nextAnswer <;> rfl
  rw [answered, appPending_of_hist (wait _) p, data, appPending_of_hist resp p]

/-- After an `issue` a CMD55 is outstanding on port `q` exactly if the `issue` was one on that port and ended with T_OK. -/
theorem issueRun_appPending (p : Port) (cd : Descriptor) (bc bs : BitVec 16) (buf : PrimBuf) (s : State) (q : Port) :
    (issueRun p cd bc bs buf s).appPending q =
      ((p == q && cd.isAppCmd) && (issueRun p cd bc bs buf s).ctl.tstatus == .ok) := by
  have last : ∀ (rk : RespKind) (st : TStatus) (t : State),
      (completeIssue rk st t).appPending q = (t.appPending q && (completeIssue rk st t).ctl.tstatus == .ok) := fun rk st t => by
    unfold completeIssue interruptCycle
    cases st <;> cases h : t.cfg.hasIrq <;> simp [State.appPending, List.foldl_append, followsAppCmd]
  rw [issueRun, last, answered_appPending, dispatched, log_appPending]
  rfl

/-- After the application command pair none is outstanding, unless its second command is one. -/
theorem acmdRun_appPending (p : Port) (rca : BitVec 16) (cd : Descriptor) (s : State) (h : cd.isAppCmd = false) (q : Port) :
    (acmdRun p rca cd s).appPending q = false := by
  unfold acmdRun afterAppCmd
  split
  · simp [issueRun_appPending, h]
  · rename_i k
    rw [issueRun_appPending, beq_eq_false_iff_ne.2 k, Bool.and_false]

/-! ### Memory: without a data read nothing is stored -/

/-- Data phases of a write store nothing. -/
theorem moveBlocks_noStore (bc : BitVec 16) (n : Nat) (s : State) (h : s.de.dir ≠ .read) :
    (moveBlocks bc n s).1.mem = s.mem ∧ (moveBlocks bc n s).1.seq.scratch = s.seq.scratch := by
  induction n generalizing s with
  | zero => exact ⟨rfl, rfl⟩
  | succ n ih =>
    have one : (moveBlock bc s).1.mem = s.mem ∧ (moveBlock bc s).1.seq.scratch = s.seq.scratch := by
      rcases moveBlock_cases bc s with ⟨_, _, hr, _⟩ | ⟨_, e⟩ | ⟨hr, _⟩ | ⟨_, _, e⟩
      · exact absurd hr h
      · rw [e]; exact ⟨rfl, rfl⟩
      · exact absurd hr h
      · rw [e]; exact ⟨rfl, rfl⟩
    simp only [moveBlocks]
    split
    · have k := ih (moveBlock bc s).1 (by rw [(moveBlock_carried bc s).dir]; exact h)
      exact ⟨k.1.trans one.1, k.2.trans one.2⟩
    · exact one

theorem receive_noStore (rk : RespKind) (a : CardAnswer) (t : State) :
    (receive rk a t).1.mem = t.mem ∧ (receive rk a t).1.seq = t.seq ∧ (receive rk a t).1.de = t.de := by
  unfold receive
  split
  · exact ⟨rfl, rfl, rfl⟩
  · cases a <;> exact ⟨rfl, rfl, rfl⟩

theorem busyPhase_noStore (cd : Descriptor) (s : State) :
    (busyPhase cd s).1.mem = s.mem ∧ (busyPhase cd s).1.seq = s.seq := by
  unfold busyPhase
  split <;> exact ⟨rfl, rfl⟩

theorem waitPhase_noStore (cd : Descriptor) (r : State × TStatus) :
    (waitPhase cd r).1.mem = r.1.mem ∧ (waitPhase cd r).1.seq = r.1.seq := by
  unfold waitPhase
  split
  · exact busyPhase_noStore cd _
  · exact ⟨rfl, rfl⟩

theorem dataPhase_noStore (cd : Descriptor) (bc : BitVec 16) (r : State × TStatus) (h : cd.dir = .none ∨ r.1.de.dir ≠ .read) :
    (dataPhase cd bc r).1.mem = r.1.mem ∧ (dataPhase cd bc r).1.seq = r.1.seq := by
  unfold dataPhase
  split
  · rename_i hc
    have hr := h.resolve_left hc.2
    have ns := moveBlocks_noStore bc bc.toNat r.1 hr
    exact ⟨ns.1, by rw [(moveBlocks_carried bc bc.toNat r.1).seq, ns.2]⟩
  · exact ⟨rfl, rfl⟩

/-- A command that reads no data leaves host memory and the scratch alone. -/
theorem issueRun_noStore (p : Port) (cd : Descriptor) (bc bs : BitVec 16) (buf : PrimBuf) (s : State) (h : cd.dir ≠ .read) :
    (issueRun p cd bc bs buf s).mem = s.mem ∧ (issueRun p cd bc bs buf s).seq = s.seq := by
  obtain ⟨_, d2, _, _, _, _, _, _, d9, _⟩ := dispatched_carriedLike p cd bc bs buf s
  obtain ⟨r1, r2, r3⟩ := receive_noStore cd.rk (dispatched p cd bc bs buf s).nextAnswer (dispatched p cd bc bs buf s).dropAnswer
  have dir : cd.dir = .none ∨ (responsePhase cd.rk (dispatched p cd bc bs buf s)).1.de.dir ≠ .read := by
    by_cases hd : cd.dir = .none
    · exact .inl hd
    · refine .inr ?_
      rw [responsePhase, r3]
      simpa [dispatched, armEngine, hd] using h
  obtain ⟨m1, m2⟩ := dataPhase_noStore cd bc _ dir
  obtain ⟨w1, w2⟩ := waitPhase_noStore cd (dataPhase cd bc (responsePhase cd.rk (dispatched p cd bc bs buf s)))
  obtain ⟨_, k2, _, _, _, _, _, k8, _⟩ :=
    completeIssue_keeps cd.rk (answered cd bc (dispatched p cd bc bs buf s)).2 (answered cd bc (dispatched p cd bc bs buf s)).1
  exact ⟨k8.trans (w1.trans (m1.trans (r1.trans d9))), k2.trans (w2.trans (m2.trans (r2.trans d2)))⟩

/-! ### Memory: a data read keeps the canonical form -/

/-- Host memory and scratch are in canonical form. -/
def State.MemoryWf (s : State) : Prop := s.mem.wf s.cfg.memBytes = true ∧ s.seq.scratch.wf Config.scratchBytes = true

/-- Where the engine's target ends: the blocks still to move fit. -/
def State.TargetFits (s : State) : Prop :=
  s.de.cursor.toNat + s.de.blocksLeft.toNat * s.de.blockSize.toNat < 2 ^ 32 ∧
  match s.de.path with
  | .buffer a => a + (s.de.cursor.toNat + s.de.blocksLeft.toNat * s.de.blockSize.toNat) ≤ s.cfg.memBytes
  | .internal a => a + (s.de.cursor.toNat + s.de.blocksLeft.toNat * s.de.blockSize.toNat) ≤ s.cfg.memBytes
  | .scratch => s.de.cursor.toNat + s.de.blocksLeft.toNat * s.de.blockSize.toNat ≤ Config.scratchBytes

theorem writeTarget_wf (blk : List Byte) (s : State) (hm : s.MemoryWf) (hf : s.TargetFits) (hl : blk.length = s.de.blockSize.toNat)
    (hb : s.de.blocksLeft ≠ 0) : (writeTarget blk s).MemoryWf := by
  have one : s.de.blockSize.toNat ≤ s.de.blocksLeft.toNat * s.de.blockSize.toNat :=
    Nat.le_mul_of_pos_left _ (Nat.pos_of_ne_zero fun h => hb (BitVec.eq_of_toNat_eq h))
  obtain ⟨_, hf⟩ := hf
  unfold writeTarget
  split <;> rename_i hp <;> simp only [hp] at hf
  · exact ⟨writeBytes_wf _ s.cfg.memBytes _ _ hm.1 (by omega), hm.2⟩
  · exact ⟨writeBytes_wf _ s.cfg.memBytes _ _ hm.1 (by omega), hm.2⟩
  · exact ⟨hm.1, writeBytes_wf _ _ _ _ hm.2 (by omega)⟩

theorem advance_fits (s : State) (hf : s.TargetFits) (hb : s.de.blocksLeft ≠ 0) :
    (advanceEngine s).TargetFits ∧ (advanceEngine s).de.blocksLeft.toNat = s.de.blocksLeft.toNat - 1 := by
  have pos : 0 < s.de.blocksLeft.toNat := Nat.pos_of_ne_zero fun h => hb (BitVec.eq_of_toNat_eq h)
  have left : (s.de.blocksLeft - 1).toNat = s.de.blocksLeft.toNat - 1 := by
    have := s.de.blocksLeft.isLt
    rw [BitVec.toNat_sub, show (1 : BitVec 16).toNat = 1 from rfl]
    omega
  have split1 : s.de.blocksLeft.toNat * s.de.blockSize.toNat =
      s.de.blockSize.toNat + (s.de.blocksLeft.toNat - 1) * s.de.blockSize.toNat := by
    conv_lhs => rw [show s.de.blocksLeft.toNat = (s.de.blocksLeft.toNat - 1) + 1 by omega, Nat.add_mul, one_mul]
    omega
  have cur : (s.de.cursor + s.de.blockSize.setWidth 32).toNat = s.de.cursor.toNat + s.de.blockSize.toNat := by
    have h := hf.1
    have := s.de.blockSize.isLt
    rw [BitVec.toNat_add, BitVec.toNat_setWidth, Nat.mod_eq_of_lt (by omega : s.de.blockSize.toNat < 2 ^ 32), Nat.mod_eq_of_lt]
    omega
  have de : (advanceEngine s).de = { s.de with
      cursor := s.de.cursor + s.de.blockSize.setWidth 32, blocksLeft := s.de.blocksLeft - 1 } := rfl
  obtain ⟨h1, h2⟩ := hf
  refine ⟨?_, left⟩
  unfold State.TargetFits
  rw [de, advanceEngine_cfg]
  dsimp only
  rw [cur, left]
  refine ⟨by omega, ?_⟩
  cases hp : s.de.path <;> simp only [hp] at h2 ⊢ <;> omega

theorem moveBlock_wf (bc : BitVec 16) (s : State) (hm : s.MemoryWf) (hf : s.TargetFits) (hb : s.de.blocksLeft ≠ 0) :
    (moveBlock bc s).1.MemoryWf ∧
      ((moveBlock bc s).2 = .ok → (moveBlock bc s).1.TargetFits ∧
        (moveBlock bc s).1.de.blocksLeft.toNat = s.de.blocksLeft.toNat - 1) := by
  rcases moveBlock_cases bc s with ⟨blk, hl, _, h⟩ | ⟨_, h⟩ | ⟨_, h⟩ | ⟨st, hst, h⟩ <;> rw [h]
  · have fits : (writeTarget blk s.dropBlock.bump).TargetFits ∧ (writeTarget blk s.dropBlock.bump).de = s.de := by
      unfold writeTarget
      split <;> exact ⟨hf, rfl⟩
    obtain ⟨k1, k2⟩ := advance_fits ((writeTarget blk s.dropBlock.bump).log (.blockIn (bc.toNat - s.de.blocksLeft.toNat) blk))
      fits.1 (by rw [log_de, fits.2]; exact hb)
    refine ⟨writeTarget_wf blk s.dropBlock.bump hm hf hl hb, fun _ => ⟨k1, ?_⟩⟩
    rw [k2, log_de, fits.2]
  · obtain ⟨k1, k2⟩ := advance_fits (s.dropBlock.log (.blockOut (bc.toNat - s.de.blocksLeft.toNat) (readTarget s.dropBlock))) hf hb
    exact ⟨hm, fun _ => ⟨k1, k2⟩⟩
  · exact ⟨writeTarget_wf _ s.dropBlock hm hf (by simp [State.freeBytes]) hb, fun h => by simp at h⟩
  · exact ⟨hm, fun h => absurd h hst⟩

theorem moveBlocks_wf (bc : BitVec 16) (n : Nat) (s : State) (hm : s.MemoryWf) (hf : s.TargetFits) (hn : n ≤ s.de.blocksLeft.toNat) :
    (moveBlocks bc n s).1.MemoryWf := by
  induction n generalizing s with
  | zero => exact hm
  | succ n ih =>
    have hb : s.de.blocksLeft ≠ 0 := fun h => by rw [h] at hn; simp at hn
    obtain ⟨k1, k2⟩ := moveBlock_wf bc s hm hf hb
    simp only [moveBlocks]
    split
    · rename_i hok
      obtain ⟨k3, k4⟩ := k2 hok
      exact ih _ k1 k3 (by omega)
    · exact k1

/-- Every `issue` that is not refused keeps host memory and scratch in canonical form. -/
theorem issueRun_wf (p : Port) (cd : Descriptor) (bc bs : BitVec 16) (buf : PrimBuf) (s : State) (hm : s.MemoryWf)
    (h : issueRefusal p cd bc bs buf s = none) : (issueRun p cd bc bs buf s).MemoryWf := by
  by_cases hd : cd.dir = .none
  · obtain ⟨k1, k2⟩ := issueRun_noStore p cd bc bs buf s (by rw [hd]; decide)
    unfold State.MemoryWf
    rw [k1, k2, (issueRun_issued p cd bc bs buf s).cfg]
    exact hm
  · have refusal : bufferRefusal buf (bc.toNat * bs.toNat) s.cfg = none := by
      unfold issueRefusal at h
      split at h
      · cases h
      · split at h
        · cases h
        · split at h
          · cases h
          · split at h
            · cases h
            · exact h
    have de : (dispatched p cd bc bs buf s).de = ⟨true, cd.dir, bc, bs, pathOf buf s.cfg, 0⟩ := by
      simp [dispatched, armEngine, hd]
    have small : bc.toNat * bs.toNat < 2 ^ 32 := by
      have h1 : bc.toNat ≤ 2 ^ 16 - 1 := by have := bc.isLt; omega
      have h2 : bs.toNat ≤ 2 ^ 16 - 1 := by have := bs.isLt; omega
      exact lt_of_le_of_lt (Nat.mul_le_mul h1 h2) (by norm_num)
    have range : ∀ a : Nat, rangeRefusal a (bc.toNat * bs.toNat) s.cfg = none → a + bc.toNat * bs.toNat ≤ s.cfg.memBytes := by
      intro a ha
      unfold rangeRefusal at ha
      split at ha
      · cases ha
      · split at ha
        · cases ha
        · omega
    obtain ⟨_, d2, _, _, _, _, d7, _, d9, _⟩ := dispatched_carriedLike p cd bc bs buf s
    have fits : (responsePhase cd.rk (dispatched p cd bc bs buf s)).1.TargetFits := by
      have e : (responsePhase cd.rk (dispatched p cd bc bs buf s)).1.de = ⟨true, cd.dir, bc, bs, pathOf buf s.cfg, 0⟩ :=
        (receive_noStore cd.rk _ _).2.2.trans de
      unfold State.TargetFits
      rw [e, ((responsePhase_carried cd.rk _).cfg.trans d7 : _ = s.cfg)]
      refine ⟨by simpa using small, ?_⟩
      cases buf with
      | null => simpa [pathOf] using range _ refusal
      | addr a => simpa [pathOf] using range _ refusal
      | scratch =>
        simp only [bufferRefusal] at refusal
        split at refusal
        · simpa [pathOf]
        · cases refusal
    obtain ⟨r1, r2, r3⟩ := receive_noStore cd.rk (dispatched p cd bc bs buf s).nextAnswer (dispatched p cd bc bs buf s).dropAnswer
    have m1 : (responsePhase cd.rk (dispatched p cd bc bs buf s)).1.MemoryWf := by
      unfold State.MemoryWf
      rw [((responsePhase_carried cd.rk _).cfg.trans d7 : _ = s.cfg), responsePhase, r1, r2, dropAnswer_mem, dropAnswer_seq, d9, d2]
      exact hm
    have m2 : (dataPhase cd bc (responsePhase cd.rk (dispatched p cd bc bs buf s))).1.MemoryWf := by
      unfold dataPhase
      split
      · refine moveBlocks_wf bc _ _ m1 fits ?_
        rw [responsePhase, r3, dropAnswer_de, de]
      · exact m1
    obtain ⟨w1, w2⟩ := waitPhase_noStore cd (dataPhase cd bc (responsePhase cd.rk (dispatched p cd bc bs buf s)))
    obtain ⟨_, k2, _, _, _, _, _, k8, _⟩ :=
      completeIssue_keeps cd.rk (answered cd bc (dispatched p cd bc bs buf s)).2 (answered cd bc (dispatched p cd bc bs buf s)).1
    have c : (issueRun p cd bc bs buf s).cfg = (dataPhase cd bc (responsePhase cd.rk (dispatched p cd bc bs buf s))).1.cfg := by
      rw [(issueRun_issued p cd bc bs buf s).cfg, (dataPhase_carried cd bc _).cfg, (responsePhase_carried cd.rk _).cfg, d7]
    unfold State.MemoryWf
    rw [c, issueRun, k8, k2, answered, w1, w2]
    exact m2

end Sys2Proof.Machine
end

