-- ==== Sys2Proof/Laws/PerInstr.lean ====
section
/-! SUPPORT. The per-instruction family EncodedFormat: the format and the operation field of every encoded operation are those of its row
in the opcode table (30_encoding.md R86, R88, R105). -/

namespace Sys2Proof

/-- Width of a presented word (30_encoding.md R103). -/
def OpWord.bits : OpWord → Nat
  | .hr _ _ => 64
  | .po _ _ _ => 40
  | .cd _ => 48

/-- The field that names the operation: `op` of an HR or PO word, `KKII` of a CD word (30_encoding.md R86, R88, R105). -/
def OpWord.head : OpWord → Nat
  | .hr w _ => (w.extractLsb 63 56).toNat
  | .po w _ _ => (w.extractLsb 39 32).toNat
  | .cd w => (w.extractLsb 47 32).toNat

/-- Width and operation field of every row, as the tables R87, R88 and R105 list them. -/
def Instr.tableRow : Instr → Nat × Nat
  | .init _ _ _ => (64, 0x00)
  | .deinit _ _ _ => (64, 0x01)
  | .getDevInfo _ _ _ => (64, 0x02)
  | .getCid _ _ _ => (64, 0x03)
  | .getWriteProtBits _ _ _ => (64, 0x04)
  | .getSectors _ _ _ => (64, 0x05)
  | .readSectors _ _ _ _ => (64, 0x06)
  | .writeSectors _ _ _ _ => (64, 0x07)
  | .issue _ _ _ _ _ => (40, 0x00)
  | .setClock _ _ => (40, 0x01)
  | .setBusWidth _ _ => (40, 0x02)
  | .cardPresent _ => (40, 0x03)
  | .writeProtectPin _ => (40, 0x04)
  | .cmdResponseR1 => (40, 0x05)
  | .cmdResponseR1b => (40, 0x06)
  | .cmdResponseR2 => (40, 0x07)
  | .cmdResponseR3 => (40, 0x08)
  | .cmdResponseR6 => (40, 0x09)
  | .cmdResponseR7 => (40, 0x0A)
  | .ctlReset => (40, 0x0B)
  | .goIdleState => (48, 0x0000)
  | .sendIfCond => (48, 0x1808)
  | .appCmd _ => (48, 0x0437)
  | .sdSendOpCond _ _ => (48, 0x1029)
  | .sendOpCond _ => (48, 0x1001)
  | .allSendCid => (48, 0x0C02)
  | .sendRelativeAddr => (48, 0x1403)
  | .setRelativeAddr _ => (48, 0x0403)
  | .sendCsd _ => (48, 0x0C09)
  | .selectCard _ => (48, 0x0807)
  | .sendExtCsd => (48, 0x0508)
  | .switchFunc => (48, 0x0506)
  | .switch _ _ => (48, 0x0806)
  | .sendStatus _ => (48, 0x040D)
  | .setClrCardDetect => (48, 0x042A)
  | .acmdSetBusWidth => (48, 0x0406)
  | .readSingleBlock _ => (48, 0x0511)
  | .readMultipleBlock _ => (48, 0x0512)
  | .writeBlock _ => (48, 0x0618)
  | .writeMultipleBlock _ => (48, 0x0619)
  | .setBlockCount _ => (48, 0x0417)
  | .stopTransmission => (48, 0x080C)

theorem hostWord_op (op : HostOp) (d : BitVec 8) (c : BitVec 16) (s : Word) : (hostWord op d c s).extractLsb 63 56 = op.code := by
  apply BitVec.eq_of_getLsbD_eq
  intro i hi
  simp only [hostWord, BitVec.getLsbD_extractLsb, BitVec.getLsbD_append]
  have e : 56 + i - 32 - 16 - 8 = i := by omega
  simp (disch := omega) [show ¬56 + i < 32 by omega, show ¬56 + i - 32 < 16 by omega, show ¬56 + i - 32 - 16 < 8 by omega, e,
    show i < 8 by omega]

theorem primWord_op (op : BitVec 8) (x : Word) : (primWord op x).extractLsb 39 32 = op := by
  apply BitVec.eq_of_getLsbD_eq
  intro i hi
  simp only [primWord, BitVec.getLsbD_extractLsb, BitVec.getLsbD_append]
  simp [show ¬32 + i < 32 by omega, hi]

theorem descriptorWord_op (d : Descriptor) :
    d.word.extractLsb 47 32 = 0#3 ++ d.rk.code ++ d.dir.code ++ 0#2 ++ d.index := by
  apply BitVec.eq_of_getLsbD_eq
  intro i hi
  simp only [Descriptor.word, BitVec.getLsbD_extractLsb, BitVec.getLsbD_append]
  simp [show ¬32 + i < 32 by omega]
  omega

/-- The operation field of a CD word, from its response kind, direction and index (30_encoding.md R90). -/
theorem head_cd (rk : RespKind) (dir : Dir) (index : BitVec 6) (arg : Word) (n : Nat)
    (h : (0#3 ++ rk.code ++ dir.code ++ 0#2 ++ index).toNat = n) : (OpWord.cd (Descriptor.word ⟨rk, dir, index, arg⟩)).head = n :=
  (congrArg BitVec.toNat (descriptorWord_op ⟨rk, dir, index, arg⟩)).trans h

namespace Laws

/-- The encoded word of `i` has the width and the operation field of its row. -/
def EncodedFormat.Statement (i : Instr) : Prop := (encode i).bits = i.tableRow.1 ∧ (encode i).head = i.tableRow.2

theorem EncodedFormat.init (d : BitVec 8) (c : BitVec 16) (n : Word) : EncodedFormat.Statement (.init d c n) :=
  ⟨rfl, congrArg BitVec.toNat (hostWord_op _ _ _ _)⟩

theorem EncodedFormat.deinit (d : BitVec 8) (c : BitVec 16) (n : Word) : EncodedFormat.Statement (.deinit d c n) :=
  ⟨rfl, congrArg BitVec.toNat (hostWord_op _ _ _ _)⟩

theorem EncodedFormat.getDevInfo (d : BitVec 8) (c : BitVec 16) (n : Word) : EncodedFormat.Statement (.getDevInfo d c n) :=
  ⟨rfl, congrArg BitVec.toNat (hostWord_op _ _ _ _)⟩

theorem EncodedFormat.getCid (d : BitVec 8) (c : BitVec 16) (n : Word) : EncodedFormat.Statement (.getCid d c n) :=
  ⟨rfl, congrArg BitVec.toNat (hostWord_op _ _ _ _)⟩

theorem EncodedFormat.getWriteProtBits (d : BitVec 8) (c : BitVec 16) (n : Word) : EncodedFormat.Statement (.getWriteProtBits d c n) :=
  ⟨rfl, congrArg BitVec.toNat (hostWord_op _ _ _ _)⟩

theorem EncodedFormat.getSectors (d : BitVec 8) (c : BitVec 16) (n : Word) : EncodedFormat.Statement (.getSectors d c n) :=
  ⟨rfl, congrArg BitVec.toNat (hostWord_op _ _ _ _)⟩

theorem EncodedFormat.readSectors (d : BitVec 8) (c : BitVec 16) (n : Word) (buf : HostBuf) : EncodedFormat.Statement (.readSectors d c n buf) :=
  ⟨rfl, congrArg BitVec.toNat (hostWord_op _ _ _ _)⟩

theorem EncodedFormat.writeSectors (d : BitVec 8) (c : BitVec 16) (n : Word) (buf : HostBuf) : EncodedFormat.Statement (.writeSectors d c n buf) :=
  ⟨rfl, congrArg BitVec.toNat (hostWord_op _ _ _ _)⟩

theorem EncodedFormat.issue (p : Port) (cd : Descriptor) (bc : BitVec 16) (bs : BitVec 16) (buf : PrimBuf) : EncodedFormat.Statement (.issue p cd bc bs buf) :=
  ⟨rfl, congrArg BitVec.toNat (primWord_op _ _)⟩

theorem EncodedFormat.setClock (p : Port) (x : Word) : EncodedFormat.Statement (.setClock p x) :=
  ⟨rfl, congrArg BitVec.toNat (primWord_op _ _)⟩

theorem EncodedFormat.setBusWidth (p : Port) (x : Word) : EncodedFormat.Statement (.setBusWidth p x) :=
  ⟨rfl, congrArg BitVec.toNat (primWord_op _ _)⟩

theorem EncodedFormat.cardPresent (p : Port) : EncodedFormat.Statement (.cardPresent p) :=
  ⟨rfl, congrArg BitVec.toNat (primWord_op _ _)⟩

theorem EncodedFormat.writeProtectPin (p : Port) : EncodedFormat.Statement (.writeProtectPin p) :=
  ⟨rfl, congrArg BitVec.toNat (primWord_op _ _)⟩

theorem EncodedFormat.cmdResponseR1 : EncodedFormat.Statement (.cmdResponseR1) :=
  ⟨rfl, congrArg BitVec.toNat (primWord_op _ _)⟩

theorem EncodedFormat.cmdResponseR1b : EncodedFormat.Statement (.cmdResponseR1b) :=
  ⟨rfl, congrArg BitVec.toNat (primWord_op _ _)⟩

theorem EncodedFormat.cmdResponseR2 : EncodedFormat.Statement (.cmdResponseR2) :=
  ⟨rfl, congrArg BitVec.toNat (primWord_op _ _)⟩

theorem EncodedFormat.cmdResponseR3 : EncodedFormat.Statement (.cmdResponseR3) :=
  ⟨rfl, congrArg BitVec.toNat (primWord_op _ _)⟩

theorem EncodedFormat.cmdResponseR6 : EncodedFormat.Statement (.cmdResponseR6) :=
  ⟨rfl, congrArg BitVec.toNat (primWord_op _ _)⟩

theorem EncodedFormat.cmdResponseR7 : EncodedFormat.Statement (.cmdResponseR7) :=
  ⟨rfl, congrArg BitVec.toNat (primWord_op _ _)⟩

theorem EncodedFormat.ctlReset : EncodedFormat.Statement (.ctlReset) :=
  ⟨rfl, congrArg BitVec.toNat (primWord_op _ _)⟩

theorem EncodedFormat.goIdleState : EncodedFormat.Statement (.goIdleState) :=
  ⟨rfl, head_cd .none .none 0 _ 0x0000 (by decide)⟩

theorem EncodedFormat.sendIfCond : EncodedFormat.Statement (.sendIfCond) :=
  ⟨rfl, head_cd .r7 .none 8 _ 0x1808 (by decide)⟩

theorem EncodedFormat.appCmd (rca : BitVec 16) : EncodedFormat.Statement (.appCmd rca) :=
  ⟨rfl, head_cd .r1 .none 55 _ 0x0437 (by decide)⟩

theorem EncodedFormat.sdSendOpCond (hcs : Bool) (vdd : BitVec 16) : EncodedFormat.Statement (.sdSendOpCond hcs vdd) :=
  ⟨rfl, head_cd .r3 .none 41 _ 0x1029 (by decide)⟩

theorem EncodedFormat.sendOpCond (vdd : BitVec 16) : EncodedFormat.Statement (.sendOpCond vdd) :=
  ⟨rfl, head_cd .r3 .none 1 _ 0x1001 (by decide)⟩

theorem EncodedFormat.allSendCid : EncodedFormat.Statement (.allSendCid) :=
  ⟨rfl, head_cd .r2 .none 2 _ 0x0C02 (by decide)⟩

theorem EncodedFormat.sendRelativeAddr : EncodedFormat.Statement (.sendRelativeAddr) :=
  ⟨rfl, head_cd .r6 .none 3 _ 0x1403 (by decide)⟩

theorem EncodedFormat.setRelativeAddr (rca : BitVec 16) : EncodedFormat.Statement (.setRelativeAddr rca) :=
  ⟨rfl, head_cd .r1 .none 3 _ 0x0403 (by decide)⟩

theorem EncodedFormat.sendCsd (rca : BitVec 16) : EncodedFormat.Statement (.sendCsd rca) :=
  ⟨rfl, head_cd .r2 .none 9 _ 0x0C09 (by decide)⟩

theorem EncodedFormat.selectCard (rca : BitVec 16) : EncodedFormat.Statement (.selectCard rca) :=
  ⟨rfl, head_cd .r1b .none 7 _ 0x0807 (by decide)⟩

theorem EncodedFormat.sendExtCsd : EncodedFormat.Statement (.sendExtCsd) :=
  ⟨rfl, head_cd .r1 .read 8 _ 0x0508 (by decide)⟩

theorem EncodedFormat.switchFunc : EncodedFormat.Statement (.switchFunc) :=
  ⟨rfl, head_cd .r1 .read 6 _ 0x0506 (by decide)⟩

theorem EncodedFormat.switch (i : BitVec 8) (v : BitVec 8) : EncodedFormat.Statement (.switch i v) :=
  ⟨rfl, head_cd .r1b .none 6 _ 0x0806 (by decide)⟩

theorem EncodedFormat.sendStatus (rca : BitVec 16) : EncodedFormat.Statement (.sendStatus rca) :=
  ⟨rfl, head_cd .r1 .none 13 _ 0x040D (by decide)⟩

theorem EncodedFormat.setClrCardDetect : EncodedFormat.Statement (.setClrCardDetect) :=
  ⟨rfl, head_cd .r1 .none 42 _ 0x042A (by decide)⟩

theorem EncodedFormat.acmdSetBusWidth : EncodedFormat.Statement (.acmdSetBusWidth) :=
  ⟨rfl, head_cd .r1 .none 6 _ 0x0406 (by decide)⟩

theorem EncodedFormat.readSingleBlock (arg : Word) : EncodedFormat.Statement (.readSingleBlock arg) :=
  ⟨rfl, head_cd .r1 .read 17 _ 0x0511 (by decide)⟩

theorem EncodedFormat.readMultipleBlock (arg : Word) : EncodedFormat.Statement (.readMultipleBlock arg) :=
  ⟨rfl, head_cd .r1 .read 18 _ 0x0512 (by decide)⟩

theorem EncodedFormat.writeBlock (arg : Word) : EncodedFormat.Statement (.writeBlock arg) :=
  ⟨rfl, head_cd .r1 .write 24 _ 0x0618 (by decide)⟩

theorem EncodedFormat.writeMultipleBlock (arg : Word) : EncodedFormat.Statement (.writeMultipleBlock arg) :=
  ⟨rfl, head_cd .r1 .write 25 _ 0x0619 (by decide)⟩

theorem EncodedFormat.setBlockCount (count : BitVec 16) : EncodedFormat.Statement (.setBlockCount count) :=
  ⟨rfl, head_cd .r1 .none 23 _ 0x0417 (by decide)⟩

theorem EncodedFormat.stopTransmission : EncodedFormat.Statement (.stopTransmission) :=
  ⟨rfl, head_cd .r1b .none 12 _ 0x080C (by decide)⟩

end Laws

end Sys2Proof
end

