-- ==== Sys2Proof/Tests/Slice0.lean ====
section
/-! SUPPORT. Tests: the operand checks refuse ill-formed terms, words written out from the encoding tables decode to their operations, single
steps do what the vectors of 95_test_vectors.md say, and every statement's hypotheses are met by a concrete state (`wit_…`). -/

namespace Sys2Proof.Tests

open Sys2Proof Sys2Proof.Machine

/-- The parameters of a test machine: the defaults with `DMA_BASE` in place. -/
def config : Config := ⟨64, 50000000, 0x3000, 1, 3, false, true, true, 32, 0x08000000⟩

/-! ### Well-formedness: one ill-formed term for each check -/

theorem test_wf_read_misaligned : (Instr.readSectors 0 1 100 (.addr 0x20001002)).wf config = false := by decide
theorem test_wf_write_range : (Instr.writeSectors 0 2 8 (.addr 0xFFFFFE00)).wf config = false := by decide
theorem test_wf_issue_misaligned : (Instr.issue .p0 ⟨.r1, .read, 17, 0⟩ 1 512 (.addr 1)).wf config = false := by decide
theorem test_wf_issue_range : (Instr.issue .p0 ⟨.r1, .read, 17, 0⟩ 2 512 (.addr 0xFFFFFE00)).wf config = false := by decide
theorem test_wf_issue_scratch : (Instr.issue .p0 ⟨.r1, .read, 8, 0⟩ 2 512 .scratch).wf config = false := by decide
theorem test_wf_issue_no_blocks : (Instr.issue .p0 ⟨.r1, .read, 17, 0⟩ 0 512 .null).wf config = false := by decide
theorem test_wf_issue_empty_blocks : (Instr.issue .p0 ⟨.r1, .write, 24, 0⟩ 1 0 .null).wf config = false := by decide
theorem test_wf_issue_unused_misaligned : (Instr.issue .p0 ⟨.r1, .none, 13, 0⟩ 0 0 (.addr 2)).wf config = false := by decide
theorem test_wf_issue_unused_counts : (Instr.issue .p0 ⟨.r1, .none, 13, 0⟩ 2 512 (.addr 0xFFFFFE00)).wf config = true := by decide
/-- A platform of 16 address bits (20_memory.md R61). -/
theorem test_wf_narrow_platform : (Instr.readSectors 0 1 100 (.addr 0xFE00)).wf { config with addrBits := 16 } = true ∧
    (Instr.readSectors 0 1 100 (.addr 0x10000)).wf { config with addrBits := 16 } = false := by decide
theorem test_wf_clock_zero : (Instr.setClock .p0 0).wf config = false := by decide
theorem test_wf_width_two : (Instr.setBusWidth .p0 2).wf config = false := by decide
theorem test_wf_good : (Instr.readSectors 0 1 100 (.addr 0xFFFFFE00)).wf config = true ∧ (Instr.setBusWidth .p1 4).wf config = true := by decide

/-! ### Decoding: one word per operation, written out from 30_encoding.md R87, R88, R105 -/

theorem test_decode_init : decode false (.hr 0x0001000000000000 .null) = .ok (.init 1 0 0) := by decide
theorem test_decode_deinit : decode false (.hr 0x0100000000000000 .null) = .ok (.deinit 0 0 0) := by decide
theorem test_decode_getDevInfo : decode false (.hr 0x0201000000000000 .null) = .ok (.getDevInfo 1 0 0) := by decide
theorem test_decode_getCid : decode false (.hr 0x0301000000000000 .null) = .ok (.getCid 1 0 0) := by decide
theorem test_decode_getWriteProtBits : decode false (.hr 0x0400000000000000 .null) = .ok (.getWriteProtBits 0 0 0) := by decide
theorem test_decode_getSectors : decode false (.hr 0x0500000000000000 .null) = .ok (.getSectors 0 0 0) := by decide
theorem test_decode_readSectors : decode false (.hr 0x0600000103B72400 (.addr 0x20001000)) = .ok (.readSectors 0 1 62333952 (.addr 0x20001000)) := by decide
theorem test_decode_writeSectors : decode false (.hr 0x0701000300000008 .null) = .ok (.writeSectors 1 3 8 .null) := by decide
theorem test_decode_issue : decode false (.po 0x0000000000 .p1 ⟨0x051100000064, 1, 512, .scratch⟩) = .ok (.issue .p1 ⟨.r1, .read, 17, 0x64⟩ 1 512 .scratch) := by decide
theorem test_decode_set_clock : decode false (.po 0x0100061A80 .p1 IssueOperands.zero) = .ok (.setClock .p1 400000) := by decide
theorem test_decode_set_bus_width : decode false (.po 0x0200000004 .p1 IssueOperands.zero) = .ok (.setBusWidth .p1 4) := by decide
theorem test_decode_card_present : decode false (.po 0x0300000000 .p1 IssueOperands.zero) = .ok (.cardPresent .p1) := by decide
theorem test_decode_write_protect_pin : decode false (.po 0x0400000000 .p1 IssueOperands.zero) = .ok (.writeProtectPin .p1) := by decide
theorem test_decode_cmd_response_r1 : decode false (.po 0x0500000000 .p0 IssueOperands.zero) = .ok (.cmdResponseR1) := by decide
theorem test_decode_cmd_response_r1b : decode false (.po 0x0600000000 .p0 IssueOperands.zero) = .ok (.cmdResponseR1b) := by decide
theorem test_decode_cmd_response_r2 : decode false (.po 0x0700000000 .p0 IssueOperands.zero) = .ok (.cmdResponseR2) := by decide
theorem test_decode_cmd_response_r3 : decode false (.po 0x0800000000 .p0 IssueOperands.zero) = .ok (.cmdResponseR3) := by decide
theorem test_decode_cmd_response_r6 : decode false (.po 0x0900000000 .p0 IssueOperands.zero) = .ok (.cmdResponseR6) := by decide
theorem test_decode_cmd_response_r7 : decode false (.po 0x0A00000000 .p0 IssueOperands.zero) = .ok (.cmdResponseR7) := by decide
theorem test_decode_ctl_reset : decode false (.po 0x0B00000000 .p0 IssueOperands.zero) = .ok (.ctlReset) := by decide
theorem test_decode_goIdleState : decode false (.cd 0x000000000000) = .ok (.goIdleState) := by decide
theorem test_decode_sendIfCond : decode false (.cd 0x1808000001AA) = .ok (.sendIfCond) := by decide
theorem test_decode_appCmd : decode false (.cd 0x0437AAAA0000) = .ok (.appCmd 0xAAAA) := by decide
theorem test_decode_sdSendOpCond : decode true (.cd 0x102940300000) = .ok (.sdSendOpCond true 0x3000) := by decide
theorem test_decode_sdSendOpCond_noHcs : decode true (.cd 0x102900300000) = .ok (.sdSendOpCond false 0x3000) := by decide
theorem test_decode_sendOpCond : decode false (.cd 0x100140300000) = .ok (.sendOpCond 0x3000) := by decide
theorem test_decode_allSendCid : decode false (.cd 0x0C0200000000) = .ok (.allSendCid) := by decide
theorem test_decode_sendRelativeAddr : decode false (.cd 0x140300000000) = .ok (.sendRelativeAddr) := by decide
theorem test_decode_setRelativeAddr : decode false (.cd 0x040300010000) = .ok (.setRelativeAddr 1) := by decide
theorem test_decode_sendCsd : decode false (.cd 0x0C09AAAA0000) = .ok (.sendCsd 0xAAAA) := by decide
theorem test_decode_selectCard : decode false (.cd 0x0807AAAA0000) = .ok (.selectCard 0xAAAA) := by decide
theorem test_decode_sendExtCsd : decode false (.cd 0x050800000000) = .ok (.sendExtCsd) := by decide
theorem test_decode_switchFunc : decode false (.cd 0x050680FFFFF1) = .ok (.switchFunc) := by decide
theorem test_decode_switch : decode false (.cd 0x080603B90100) = .ok (.switch 185 1) := by decide
theorem test_decode_sendStatus : decode false (.cd 0x040DAAAA0000) = .ok (.sendStatus 0xAAAA) := by decide
theorem test_decode_setClrCardDetect : decode true (.cd 0x042A00000000) = .ok (.setClrCardDetect) := by decide
theorem test_decode_acmdSetBusWidth : decode true (.cd 0x040600000002) = .ok (.acmdSetBusWidth) := by decide
theorem test_decode_readSingleBlock : decode false (.cd 0x051100000064) = .ok (.readSingleBlock 0x64) := by decide
theorem test_decode_readMultipleBlock : decode false (.cd 0x051200000064) = .ok (.readMultipleBlock 0x64) := by decide
theorem test_decode_writeBlock : decode false (.cd 0x061800000005) = .ok (.writeBlock 5) := by decide
theorem test_decode_writeMultipleBlock : decode false (.cd 0x061900000008) = .ok (.writeMultipleBlock 8) := by decide
theorem test_decode_setBlockCount : decode false (.cd 0x04170000FFFF) = .ok (.setBlockCount 65535) := by decide
theorem test_decode_stopTransmission : decode false (.cd 0x080C00000000) = .ok (.stopTransmission) := by decide

/-- R107: reserved encodings, and a well-formed descriptor that is no row (CMD16). -/
theorem test_decode_refusals :
    decode false (.hr 0x0800000000000000 .null) = .error (.noHostOp 8) ∧
    decode false (.po 0x0C00000000 .p0 IssueOperands.zero) = .error (.noPrimOp 12) ∧
    decode false (.po 0x0000000000 .p0 ⟨0x1C0000000000, 0, 0, .null⟩) = .error .notDescriptor ∧
    decode false (.cd 0xE00000000000) = .error .notDescriptor ∧ decode false (.cd 0x1C0000000000) = .error .notDescriptor ∧
    decode false (.cd 0x030000000000) = .error .notDescriptor ∧ decode false (.cd 0x004000000000) = .error .notDescriptor ∧
    decode false (.cd 0x041000000200) = .error .unlistedCommand ∧ decode false (.cd 0x1808000001AB) = .error .unlistedCommand := by decide

/-- R104, R106: index 6, 41 and 42 are told apart by the preceding CMD55, not by a bit of the word. -/
theorem test_decode_bare_acmd :
    decode false (.cd 0x102940300000) = .error .unlistedCommand ∧ decode false (.cd 0x042A00000000) = .error .unlistedCommand ∧
    decode false (.cd 0x040600000002) = .error .unlistedCommand ∧ decode true (.cd 0x050680FFFFF1) = .error .unlistedCommand ∧
    decode true (.cd 0x080603B90100) = .error .unlistedCommand := by decide

theorem test_table_word : decodeTableWord 64 0x0600000200000064 = some (.readSectors 0 2 100 .null) ∧
    decodeTableWord 40 0x0200000004 = some (.setBusWidth .p0 4) ∧
    decodeTableWord 48 0x0C09AAAA0000 = some (.sendCsd 0xAAAA) ∧ decodeTableWord 48 0x040600000002 = some .acmdSetBusWidth := by decide

/-! ### States for the tests and witnesses -/

/-- The step answers a next state for which `f` holds. -/
def reaches (o : Step) (f : State → Bool) : Bool :=
  match o with
  | .next t => f t
  | .fault _ => false
  | .refused _ => false

/-- The step refuses with `r`. -/
def refuses (o : Step) (r : Refusal) : Bool :=
  match o with
  | .refused q => q == r
  | .next _ => false
  | .fault _ => false

/-- A response with first word `w`. -/
def word (w : Word) : CardAnswer := .good ⟨w, 0, 0, 0⟩

/-- The status word of a card in `tran`. -/
def tran : CardAnswer := word 0x900

/-- The slot at the end of program P2. -/
def slotP2 : Slot :=
  ⟨.sdhc, 0, 0xAAAA, 62333952, 50000000, ⟨0x56780123, 0x47801234, 0x534C3332, 0x00035344⟩, 0x5B5, 4, .block⟩

/-- An idle machine with slot `sl` in port 0, its port programmed, and scripted answers. -/
def idleWith (sl : Slot) (as : List CardAnswer) : State :=
  { State.reset with
    slot := ⟨sl, Slot.zero⟩
    ctl := ⟨.p0, ⟨sl.clockHz, 0⟩, ⟨sl.busWidth, 0⟩, ⟨true, false⟩, ⟨true, false⟩, Words4.zero, .none, .fail, false, false⟩
    cfg := config
    env := ⟨as, [], [], [], none, [], 0⟩ }

/-- The end of program P2. -/
def idle (as : List CardAnswer) : State := idleWith slotP2 as

/-- A transfer on that machine at label `l`. -/
def transfer (l : Label) (op : HostOp) (count : BitVec 16) (as : List CardAnswer) : State :=
  { idle as with seq := { State.reset.seq with busy := true, op := ⟨op, 0, count, 100, .addr 0x20001000⟩, pc := l } }

/-- `init` on port `p` at label `l` after step A1, with temporaries `t` and working slot `w`. -/
def initAt (p : Port) (l : Label) (t : Temps) (w : Slot) (as : List CardAnswer) : State :=
  { State.reset with
    seq := { State.reset.seq with busy := true, op := ⟨.init, devNumOf p, 0, 0, .null⟩, cur := p, pc := l, w := w, tmp := t }
    ctl :=
      { State.reset.ctl with
        clk := ⟨400000, 400000⟩, width := ⟨1, 1⟩, clkSet := ⟨p == .p0, p == .p1⟩, widthSet := ⟨p == .p0, p == .p1⟩ }
    cfg := config
    env := ⟨as, [], [.released, .released], [], none, [], 0⟩ }

/-- `init` on port 0 at label `l`, with zero temporaries and the working slot of step A1. -/
def initSd (l : Label) (as : List CardAnswer) : State :=
  initAt .p0 l Temps.zero { Slot.zero with clockHz := 400000, busWidth := 1 } as

/-- The CD words of the commands in a state's history. -/
def commands (s : State) : List (BitVec 48) :=
  s.hist.filterMap fun e =>
    match e with
    | .cmd _ cd => some cd.word
    | .setClock _ _ | .setWidth _ _ | .present _ _ | .wpPin _ _ | .arm _ _ _ _ | .resp _ _ | .blockIn _ _ | .blockOut _ _ | .irq | .ack
    | .ctlReset | .ret _ _ => none

/-- A block of 512 bytes. -/
def block : List Byte := List.replicate 512 0x5A

/-! ### Single steps -/

/-- U8: a second request while one runs. -/
theorem test_init_refused_in_flight : refuses (exec (.init 0 0 0) (initSd .a2 [])) .reentrantRequest = true := by decide
/-- P1, I3: an empty socket; no reset of the controller. -/
theorem test_init_no_card : reaches (step { initSd .iGuard [] with ctl := State.reset.ctl }) fun t =>
    decide (t.host.result = some (.status .noCard)) && decide (t.hist = [.present .p0 false, .ret .init (.status .noCard)]) := by decide
/-- A10: the slot is zeroed, the controller keeps its settings. -/
theorem test_deinit : reaches (exec (.deinit 0 0 0) (idle [])) fun t =>
    decide (t.slot.p0 = Slot.zero) && decide (t.ctl.clk.p0 = 50000000) && decide (t.hist = [.ret .deinit (.status .none)]) := by decide
/-- A5: an invalid device number. -/
theorem test_getDevInfo : reaches (exec (.getDevInfo 3 0 0) (idle [])) fun t => decide (t.host.result = some (.status .invalParam)) := by decide
/-- A6. -/
theorem test_getCid : reaches (exec (.getCid 0 0 0) (idle [])) fun t =>
    decide (t.host.cid = ⟨0x56780123, 0x47801234, 0x534C3332, 0x00035344⟩) := by decide
/-- A8: the stored bit 0 is not reported. -/
theorem test_getWriteProtBits : reaches (exec (.getWriteProtBits 0 0 0) (idleWith { slotP2 with writeProtect := 5 } [])) fun t =>
    decide (t.host.result = some (.byte 4)) && decide (t.hist = [.wpPin .p0 false, .ret .getWriteProtBits (.byte 4)]) := by decide
/-- P2. -/
theorem test_getSectors : reaches (exec (.getSectors 0 0 0) (idle [])) fun t => decide (t.host.result = some (.word 62333952)) := by decide
/-- T10: the byte address of a sector on a byte-addressed card. -/
theorem test_readSectors_address : reaches (step { transfer .tGuard .readSectors 1 [] with slot := ⟨{ slotP2 with kind := .sdsc, addressing := .byte }, Slot.zero⟩ }) fun t =>
    decide (t.seq.tmp.arg = 0xC800) && decide (t.seq.pc = .tPre) := by decide
/-- E8: one sector past the end. -/
theorem test_readSectors_range : reaches (step { transfer .tGuard .readSectors 1 [] with slot := ⟨{ slotP2 with sectorCount := 100 }, Slot.zero⟩ }) fun t =>
    decide (t.host.result = some (.status .invalParam)) && decide (t.hist = [.ret .readSectors (.status .invalParam)]) := by decide
/-- P5: no command is sent. -/
theorem test_writeSectors_protected : reaches (step { transfer .tGuard .writeSectors 1 [] with slot := ⟨{ slotP2 with writeProtect := 4 }, Slot.zero⟩ }) fun t =>
    decide (t.host.result = some (.status .writeProt)) && decide (t.hist = [.ret .writeSectors (.status .writeProt)]) := by decide
/-- P-7: CMD0 cannot time out, and no engine is armed. -/
theorem test_issue_no_response : reaches (exec (.issue .p0 ⟨.none, .none, 0, 0⟩ 0 0 .null) (idle [.silent])) fun t =>
    decide (t.hist = [.cmd .p0 ⟨.none, .none, 0, 0⟩, .irq, .ack, .resp .ok []]) := by decide
/-- P-6: a read that the card does not answer. -/
theorem test_issue_timeout : reaches (exec (.issue .p0 ⟨.r1, .read, 17, 0x64⟩ 1 512 (.addr 0x20001000)) (idle [.silent])) fun t =>
    decide (t.hist = [.arm .read 1 512 (.buffer 0x20001000), .cmd .p0 ⟨.r1, .read, 17, 0x64⟩, .irq, .ack, .resp .timeout []]) &&
    decide (t.mem = []) && decide (t.de.armed = false) := by decide
/-- P-1. -/
theorem test_set_clock : reaches (exec (.setClock .p0 400000) (idle [])) fun t =>
    decide (t.ctl.clk = ⟨400000, 0⟩) && decide (t.ctl.sel = .p0) && decide (t.hist = [.setClock .p0 400000]) := by decide
/-- P-2, on the port that is programmed. -/
theorem test_set_bus_width : reaches (exec (.setBusWidth .p0 1) (idle [])) fun t => decide (t.ctl.width = ⟨1, 0⟩) && decide (t.hist = [.setWidth .p0 1]) := by decide
/-- P-3: asked on an absent slot, as the first act of `init`. -/
theorem test_card_present : reaches (exec (.cardPresent .p1) { initAt .p1 .iGuard Temps.zero Slot.zero [] with ctl := State.reset.ctl }) fun t =>
    decide (t.hist = [.present .p1 false]) && decide (t.prim = .bit false) := by decide
/-- R305, U26: forbidden on an absent slot otherwise. -/
theorem test_card_present_closed : refuses (exec (.cardPresent .p1) (idle [])) .portClosed = true := by decide
/-- P-4. -/
theorem test_write_protect_pin : reaches (exec (.writeProtectPin .p0) { idle [] with pin := ⟨⟨true, false⟩, ⟨true, false⟩⟩ }) fun t =>
    decide (t.hist = [.wpPin .p0 true]) && decide (t.prim = .bit true) := by decide
/-- A machine whose controller holds a response of kind `rk`. -/
def withResponse (rk : RespKind) : State :=
  { idle [] with ctl := { (idle []).ctl with resp := ⟨0x11, 0x22, 0x33, 0x44⟩, respKind := rk, tstatus := .ok } }

/-- R136. -/
theorem test_cmd_response_r1 : reaches (exec .cmdResponseR1 (withResponse .r1)) fun t => decide (t.prim = .word 0x11) := by decide
/-- R136. -/
theorem test_cmd_response_r1b : reaches (exec .cmdResponseR1b (withResponse .r1b)) fun t => decide (t.prim = .word 0x11) := by decide
/-- R136. -/
theorem test_cmd_response_r3 : reaches (exec .cmdResponseR3 (withResponse .r3)) fun t => decide (t.prim = .word 0x11) := by decide
/-- R136. -/
theorem test_cmd_response_r6 : reaches (exec .cmdResponseR6 (withResponse .r6)) fun t => decide (t.prim = .word 0x11) := by decide
/-- R136. -/
theorem test_cmd_response_r7 : reaches (exec .cmdResponseR7 (withResponse .r7)) fun t => decide (t.prim = .word 0x11) := by decide

/-- R136: the last word is the most significant. -/
theorem test_cmd_response_r2 : reaches (exec .cmdResponseR2 (withResponse .r2)) fun t => decide (t.prim = .long 0x00000044000000330000002200000011) := by decide
/-- P-9. -/
theorem test_ctl_reset : reaches (exec .ctlReset (idle [])) fun t =>
    decide (t.ctl.clkSet = ⟨false, false⟩) && decide (t.ctl.widthSet = ⟨false, false⟩) && decide (t.ctl.busy = false) && decide (t.hist = [.ctlReset]) := by decide

/-! ### Card commands: the word sent, and what is kept of the response -/

/-- R150. -/
theorem test_cmd_goIdleState : reaches (exec .goIdleState (idle [tran])) fun t =>
    decide (commands t = [0x000000000000]) && decide (t.ctl.tstatus = .ok) := by decide
/-- R151. -/
theorem test_cmd_sendIfCond : reaches (exec .sendIfCond (idle [tran])) fun t =>
    decide (commands t = [0x1808000001AA]) && decide (t.ctl.respKind = .r7) := by decide
/-- R152. -/
theorem test_cmd_appCmd : reaches (exec (.appCmd 0xAAAA) (idle [tran])) fun t =>
    decide (commands t = [0x0437AAAA0000]) := by decide
/-- R153: CMD55 goes first. -/
theorem test_cmd_sdSendOpCond : reaches (exec (.sdSendOpCond true 0x3000) (idle [word 0x120, word 0xC0FF8000])) fun t =>
    decide (commands t = [0x043700000000, 0x102940300000]) && decide (t.seq.tmp.ocr = 0xC0FF8000) := by decide
/-- R104: no CMD41 after a failed CMD55. -/
theorem test_cmd_sdSendOpCond_suppressed : reaches (exec (.sdSendOpCond true 0x3000) (idle [.silent, word 0xC0FF8000])) fun t =>
    decide (commands t = [0x043700000000]) && decide (t.ctl.tstatus = .timeout) := by decide
/-- R104: after an accepted CMD55 the word is the second command alone. -/
theorem test_cmd_after_appCmd : reaches (step { (idle [tran]).acceptAppCmd with fetch := some (.cd 0x040600000002) }) fun t =>
    decide (commands t = [0x043700000000, 0x040600000002]) := by decide
/-- R104: a bare word is no application command. -/
theorem test_bare_acmd_refused : refuses (step { idle [tran] with fetch := some (.cd 0x042A00000000) }) .unlistedCommand = true := by decide
/-- R154. -/
theorem test_cmd_sendOpCond : reaches (exec (.sendOpCond 0x3000) (idle [word 0x00FF8080])) fun t =>
    decide (commands t = [0x100140300000]) && decide (t.seq.tmp.ocr = 0x00FF8080) := by decide
/-- R155, V-CID. -/
theorem test_cmd_allSendCid : reaches (exec .allSendCid (idle [.good ⟨0x780123FF, 0x80123456, 0x4C333247, 0x03534453⟩])) fun t =>
    decide (commands t = [0x0C0200000000]) && decide (t.seq.w.cid = ⟨0x56780123, 0x47801234, 0x534C3332, 0x00035344⟩) := by decide
/-- R156, V-R6. -/
theorem test_cmd_sendRelativeAddr : reaches (exec .sendRelativeAddr (idle [word 0xAAAA0500])) fun t =>
    decide (commands t = [0x140300000000]) && decide (t.seq.w.rca = 0xAAAA) := by decide
/-- R157. -/
theorem test_cmd_setRelativeAddr : reaches (exec (.setRelativeAddr 1) (idle [word 0x500])) fun t =>
    decide (commands t = [0x040300010000]) && decide (t.seq.w.rca = 1) := by decide
/-- R158, V-CSD2. -/
theorem test_cmd_sendCsd : reaches (exec (.sendCsd 0xAAAA) (idle [.good ⟨0x0A400073, 0xEDC87F80, 0x5B590000, 0x400E0032⟩])) fun t =>
    decide (commands t = [0x0C09AAAA0000]) && decide (t.seq.tmp.csd = 0x400E00325B590000EDC87F800A400073) := by decide
/-- R159: the busy wait of an R1b response can time out. -/
theorem test_cmd_selectCard : reaches (exec (.selectCard 0xAAAA) { idle [tran] with env := ⟨[tran], [], [.timeout], [], none, [], 0⟩ }) fun t =>
    decide (commands t = [0x0807AAAA0000]) && decide (t.ctl.tstatus = .timeout) := by decide
/-- R160: the block goes to the scratch. -/
theorem test_cmd_sendExtCsd : reaches (exec .sendExtCsd { idle [tran] with env := ⟨[tran], [.good block], [], [], none, [], 0⟩ }) fun t =>
    decide (commands t = [0x050800000000]) && decide (t.seq.scratch.readByte 511 = 0x5A) && decide (t.mem = []) := by decide +kernel
/-- R161: 64 bytes. -/
theorem test_cmd_switchFunc : reaches (exec .switchFunc { idle [tran] with env := ⟨[tran], [.good block], [], [], none, [], 0⟩ }) fun t =>
    decide (commands t = [0x050680FFFFF1]) && decide (t.de.blockSize = 64) && decide (t.seq.scratch.readByte 63 = 0x5A) && decide (t.seq.scratch.readByte 64 = 0) := by decide
/-- R162. -/
theorem test_cmd_switch : reaches (exec (.switch 183 1) { idle [tran] with env := ⟨[tran], [], [.released], [], none, [], 0⟩ }) fun t =>
    decide (commands t = [0x080603B70100]) := by decide
/-- R163. -/
theorem test_cmd_sendStatus : reaches (exec (.sendStatus 0xAAAA) (idle [tran])) fun t =>
    decide (commands t = [0x040DAAAA0000]) && decide (t.ctl.resp.w0 = 0x900) := by decide
/-- R164. -/
theorem test_cmd_setClrCardDetect : reaches (exec .setClrCardDetect (idle [word 0x120, tran])) fun t =>
    decide (commands t = [0x043700000000, 0x042A00000000]) := by decide
/-- R165. -/
theorem test_cmd_acmdSetBusWidth : reaches (exec .acmdSetBusWidth (idle [word 0x120, tran])) fun t =>
    decide (commands t = [0x043700000000, 0x040600000002]) := by decide
/-- R166: the last byte of the buffer. -/
theorem test_cmd_readSingleBlock : reaches (exec (.readSingleBlock 100) { transfer .tData .readSectors 2 [] with env := ⟨[tran], [.good block], [], [], none, [], 0⟩ }) fun t =>
    decide (commands t = [0x051100000064]) && decide (t.mem.readByte 0x200011FF = 0x5A) && decide (t.mem.length = 512) := by decide +kernel
/-- R167: block 1 fails. -/
theorem test_cmd_readMultipleBlock : reaches (exec (.readMultipleBlock 100) { transfer .tData .readSectors 2 [] with env := ⟨[tran], [.good block, .fail], [], [], none, [], 0⟩ }) fun t =>
    decide (commands t = [0x051200000064]) && decide (t.ctl.tstatus = .fail) && decide (t.de.blocksLeft = 1) && decide (t.de.cursor = 512) := by decide
/-- R168. -/
theorem test_cmd_writeBlock : reaches (exec (.writeBlock 5) { transfer .tData .writeSectors 1 [] with env := ⟨[tran], [.good []], [.released], [], none, [], 0⟩ }) fun t =>
    decide (commands t = [0x061800000005]) && decide (t.ctl.tstatus = .ok) && decide (t.mem = []) := by decide
/-- P-10: block 1 of 3 is refused. -/
theorem test_cmd_writeMultipleBlock : reaches (exec (.writeMultipleBlock 8) { transfer .tData .writeSectors 3 [] with env := ⟨[tran], [.good [], .crcError], [], [], none, [], 0⟩ }) fun t =>
    decide (commands t = [0x061900000008]) && decide (t.ctl.tstatus = .crc) && decide (t.de.blocksLeft = 2) := by decide
/-- T25. -/
theorem test_cmd_setBlockCount : reaches (exec (.setBlockCount 2) (idle [tran])) fun t =>
    decide (commands t = [0x041700000002]) := by decide
/-- R171. -/
theorem test_cmd_stopTransmission : reaches (exec .stopTransmission (idle [.badCrc])) fun t =>
    decide (commands t = [0x080C00000000]) && decide (t.ctl.tstatus = .crc) := by decide

/-! ### The parser (95_test_vectors.md 2.2) -/

theorem test_card_status : statusOk 0x00000900 = true ∧ switchOk 0x00000980 = false ∧ statusOk 0x00000980 = true ∧
    statusOk 0x80000900 = true ∧ (parseR1 0x64F80900).err = 0x64F80000 ∧ (parseR1 0x04000900).err = 0x04000000 ∧
    statusOk 0x00000F00 = false ∧ (parseR1 0x02000700).locked = true ∧ (parseR1 0x02000700).err = 0 := by decide
theorem test_csd : usableSectors (parseCsd 0x400E00325B590000EDC87F800A400073) false = some 62333952 ∧
    usableSectors (parseCsd 0x002600321B5903CFC0038000024000AB) false = some 1998848 ∧
    usableSectors (parseCsd 0x400E00325B59003FFFFF7F800A400073) false = none ∧
    usableSectors (parseCsd 0xD02600320F5903FFC003800002400055) true = some 2097152 ∧
    usableSectors (parseCsd 0xD02600320F5903FFC003800002400055) false = none ∧ usableSectors (parseCsd 0) false = none := by decide
theorem test_write_protect_bits : (parseCsd 0x400E00325B590000EDC87F800A402073).permWp = true ∧
    (parseCsd 0x002600321B5903CFC0038000024010AB).tmpWp = true ∧ wpBits true false true = 5 := by decide
theorem test_if_cond : echoMatches 0x000001AA = true ∧ echoMatches 0xFFFFF1AA = true ∧ echoMatches 0x000001AB = false ∧
    echoMatches 0x000000AA = false ∧ echoMatches 0x000002AA = false := by decide
theorem test_ext_csd : extCsdSecCount [(213, 0x80), (214, 0x74)] = 7634944 ∧ extCsdHsCap [(196, 7)] = true ∧
    extCsdHsCap [(196, 4)] = false ∧ switchConfirmed [(16, 0xF1)] = true ∧ switchConfirmed [(16, 0x0F)] = false := by decide

/-! ### Witnesses: for each statement with hypotheses, states that meet them, clause by clause -/

theorem ex_of_reaches {o : Step} {f : State → Bool} (h : reaches o f = true) : ∃ t, o = .next t ∧ f t = true := by
  cases o with
  | next t => exact ⟨t, rfl, h⟩
  | fault e => exact absurd h (by simp [reaches])
  | refused e => exact absurd h (by simp [reaches])

theorem slotP2_sound : Slot.Sound slotP2 := by
  unfold Slot.Sound Slot.Initialized Slot.Clean
  decide

theorem zero_sound : Slot.Sound Slot.zero := .inl rfl

/-- The test machines are coherent between requests, whatever is scripted. -/
theorem idle_coherent (e : Env) (f : Option OpWord) : ({ idle [] with env := e, fetch := f } : State).Coherent := by
  have legal : (idle []).ctl.Legal := fun p => by cases p <;> decide
  have clock : config.clkHsHz ≠ 0 := by decide
  refine ⟨⟨fun d => ?_, rfl, ⟨rfl, rfl, rfl⟩, legal, rfl, rfl, clock⟩, fun d h => ?_, fun h => Bool.noConfusion h, fun _ => rfl⟩
  · cases d
    · exact slotP2_sound
    · exact zero_sound
  · cases d
    · exact ⟨rfl, rfl, rfl, rfl⟩
    · exact absurd rfl h

theorem wit_DecodeEncode : (Instr.switchFunc).selectedAfter false = true ∧ (Instr.acmdSetBusWidth).selectedAfter true = true ∧
    (Instr.appCmd 0).selectedAfter true = true ∧ (Instr.ctlReset).selectedAfter false = true := by decide
theorem wit_DecodedWordsAreExact : decode false (.cd 0x0437FFFF0000) = .ok (.appCmd 0xFFFF) ∧ decode true (.cd 0x042A00000000) = .ok .setClrCardDetect ∧
    decode false (.hr 0x0601FFFFFFFFFFFF .null) = .ok (.readSectors 1 0xFFFF 0xFFFFFFFF .null) := by decide

theorem block_length : block.length = 512 := List.length_replicate

/-- An idle machine with a word presented. -/
def shown (w : OpWord) : State := { idle [] with fetch := some w }

theorem wit_UndecodableWordsRefused : (shown (.hr 0x0800000000000000 .null)).fetch = some (.hr 0x0800000000000000 .null) ∧
    8 ≤ ((0x0800000000000000 : BitVec 64).extractLsb 63 56).toNat ∧
    (shown (.po 0x0C00000000 .p0 IssueOperands.zero)).fetch = some (.po 0x0C00000000 .p0 IssueOperands.zero) ∧
    0x0C ≤ ((0x0C00000000 : BitVec 40).extractLsb 39 32).toNat ∧
    (shown (.cd 0x1C0000000000)).fetch = some (.cd 0x1C0000000000) ∧ (0x1C0000000000 : BitVec 48).extractLsb 44 42 = 7 ∧
    (0x030000000000 : BitVec 48).extractLsb 41 40 = 3 ∧ (0x200000000000 : BitVec 48).extractLsb 47 45 ≠ 0 ∧
    (0x004000000000 : BitVec 48).extractLsb 39 38 ≠ 0 ∧
    (shown (.po 0 .p0 ⟨0x1C0000000000, 0, 0, .null⟩)).fetch = some (.po 0 .p0 ⟨0x1C0000000000, 0, 0, .null⟩) ∧
    (0 : BitVec 40).extractLsb 39 32 = 0 := by decide

/-- R107: CMD16 is no row, so no operation is written so; nor does a bare ACMD42 word stand for one. -/
theorem wit_UndecodableWordsRefused_unlisted : (shown (.cd 0x041000000200)).fetch = some (.cd 0x041000000200) ∧
    (0x041000000200 : BitVec 48).extractLsb 44 42 ≠ 7 ∧ (0x041000000200 : BitVec 48).extractLsb 41 40 ≠ 3 ∧
    (0x041000000200 : BitVec 48).extractLsb 47 45 = 0 ∧ (0x041000000200 : BitVec 48).extractLsb 39 38 = 0 ∧
    ∀ i, encode i = .cd 0x041000000200 → i.selectedAfter ((shown (.cd 0x041000000200)).appPending .p0) = false := by
  refine ⟨rfl, by decide, by decide, by decide, by decide, fun i h => ?_⟩
  have bits : (encode i).bits = 48 := by rw [h]; rfl
  have head : (encode i).head = 0x0410 := by rw [h]; decide
  cases i
  iterate 20 exact absurd bits (fun k => by simp [encode, OpWord.bits] at k)
  all_goals
    rw [encode, OpWord.head, descriptorWord_op] at head
    try dsimp only [cdAppCmd, cdSdSendOpCond, cdSendOpCond, cdSetRelativeAddr, cdSendCsd, cdSelectCard, cdSwitch, cdSendStatus,
      cdReadSingleBlock, cdReadMultipleBlock, cdWriteBlock, cdWriteMultipleBlock, cdSetBlockCount] at head
    exact absurd head (by decide)
theorem wit_StepRunsDecoded : (shown (.cd 0)).fetch = some (.cd 0) ∧
    decode ((shown (.cd 0)).appPending (shown (.cd 0)).seq.cur) (.cd 0) = .ok .goIdleState := by decide
theorem wit_StepRunsSequencer : ((idle []).fetch = none ∧ (idle []).seq.busy = false) ∧
    ((initSd .a2 []).fetch = none ∧ (initSd .a2 []).seq.busy = true ∧ (initSd .a2 []).ctl.busy = false) ∧
    (({ initSd .a2 [] with ctl := { (initSd .a2 []).ctl with busy := true } } : State).ctl.busy = true) := by decide
theorem wit_RequestsAreAcceptedOneAtATime : (initSd .a2 []).seq.busy = true ∧ (idle []).seq.busy = false := by decide
theorem wit_DeinitZeroesTheSlot : (idle []).seq.busy = false ∧ (0 : BitVec 8) = devNumOf .p0 ∧ (1 : BitVec 8) = devNumOf .p1 ∧
    1 < (2 : BitVec 8).toNat := by decide
theorem wit_AccessorsCopyOut : (idle []).seq.busy = false ∧ (1 : BitVec 8) = devNumOf .p1 ∧ 1 < (255 : BitVec 8).toNat := by decide
theorem wit_WriteProtBitsReadTheSlider : (idle []).seq.busy = false ∧ 1 < (2 : BitVec 8).toNat ∧ ((idle []).slot.get .p1).kind = .absent ∧
    (idle []).slot.p0.kind ≠ .absent ∧ ({ idle [] with slot := ⟨Slot.zero, slotP2⟩ } : State).slot.p1.kind ≠ .absent := by decide
theorem wit_DeinitLeavesSentinels : (idle []).seq.busy = false ∧ (idle []).ctl.busy = false ∧ (idle []).fetch = none ∧
    ∃ t, exec (.deinit (devNumOf .p0) 0 0) (idle []) = .next t :=
  ⟨rfl, rfl, rfl, _, rfl⟩
theorem wit_HelpersProgramOnePort : (400000 : Word) ≠ 0 ∧ (idle []).ctl.busy = false ∧ (idle []).portOpen .p0 = true ∧
    (initAt .p1 .a2 Temps.zero Slot.zero []).portOpen .p1 = true := by decide
theorem wit_HelperContracts : ((2 : Word) ≠ 1 ∧ (2 : Word) ≠ 4) ∧ ({ idle [] with ctl := { (idle []).ctl with busy := true } } : State).ctl.busy = true ∧
    ((idle []).ctl.busy = false ∧ (idle []).portOpen .p1 = false ∧ (idle []).seq.busy = false) := by decide
theorem wit_PinReads : (idle []).ctl.busy = false ∧ (idle []).portOpen .p0 = true ∧
    ((initSd .iGuard []).seq.busy = true ∧ (initSd .iGuard []).seq.op.op = .init ∧ (initSd .iGuard []).seq.pc = .iGuard ∧
      (initSd .iGuard []).seq.op.devNum = devNumOf .p0) ∧ (idle []).env.pins = [] ∧
    ({ idle [] with slot := ⟨Slot.zero, slotP2⟩ } : State).portOpen .p1 = true ∧
    ({ idle [] with env := ⟨[], [], [], [], none, [⟨⟨true, true⟩, ⟨true, false⟩⟩], 0⟩ } : State).env.pins = [⟨⟨true, true⟩, ⟨true, false⟩⟩] := by
  decide
theorem wit_ResponseGetters : (idle []).ctl.busy = false ∧ (withResponse .r3).ctl.respKind = .r3 ∧ (withResponse .r3).ctl.tstatus = .ok ∧
    (withResponse .r2).ctl.respKind = .r2 ∧ ¬((withResponse .r3).ctl.respKind = .r2 ∧ (withResponse .r3).ctl.tstatus = .ok) ∧
    ¬((idle []).ctl.respKind = .r1 ∧ (idle []).ctl.tstatus = .ok) := by decide
theorem wit_IssueContracts : (idle []).ctl.busy = false ∧ (idle []).portOpen .p1 = false ∧ (idle []).ready .p0 = true ∧
    ((initSd .a1 []).portOpen .p0 = true ∧
      ({ initSd .a1 [] with ctl := State.reset.ctl } : State).ctl.clkSet.get .p0 = false) ∧
    0x20000002 % 4 ≠ 0 ∧ 2 ^ (idle []).cfg.addrBits ≤ 0x100000000 ∧ 0xFFFFFE00 % 4 = 0 ∧
    2 ^ (idle []).cfg.addrBits < 0xFFFFFE00 + (2 : BitVec 16).toNat * (512 : BitVec 16).toNat ∧
    (2 ^ ({ config with addrBits := 16 } : Config).addrBits < config.dmaBase + (1 : BitVec 16).toNat * (1 : BitVec 16).toNat) ∧
    ({ config with dmaBase := 2 } : Config).dmaBase % 4 ≠ 0 ∧ 512 < (2 : BitVec 16).toNat * (512 : BitVec 16).toNat := by decide
theorem wit_IssueReturns : (idle []).ready .p0 = true ∧
    bufferRefusal (.addr 0xFFFFFE00) ((1 : BitVec 16).toNat * (512 : BitVec 16).toNat) (idle []).cfg = none ∧
    bufferRefusal .scratch ((1 : BitVec 16).toNat * (512 : BitVec 16).toNat) (idle []).cfg = none ∧
    unusedBufferRefusal .null (idle []).cfg = none ∧ bufferRefusal .null ((65535 : BitVec 16).toNat * (512 : BitVec 16).toNat) (idle []).cfg = none := by decide
theorem wit_IssueWithoutData : (idle [tran]).ready .p0 = true ∧ (initAt .p1 .a2 Temps.zero Slot.zero []).ready .p1 = true ∧
    unusedBufferRefusal (.addr 0xFFFFFFFC) (idle [tran]).cfg = none := by decide

/-- Two blocks of four bytes. -/
def pair : List (List Byte) := [[1, 2, 3, 4], [5, 6, 7, 8]]

/-- The idle machine with a card that answers a command and two blocks well. -/
def giving : State := { idle [] with env := ⟨[tran], pair.map BlockAnswer.good, [.released], [], none, [], 0⟩ }

theorem wit_IssueReadsBlocks : giving.ready .p0 = true ∧ bufferRefusal (.addr 0xFFFFFFF8) ((2 : BitVec 16).toNat * (4 : BitVec 16).toNat) giving.cfg = none ∧
    giving.CardDelivers ⟨.r1, .read, 18, 100⟩ (2 : BitVec 16).toNat ⟨0x900, 0, 0, 0⟩ pair ∧ ∀ b ∈ pair, b.length = (4 : BitVec 16).toNat :=
  ⟨by decide, by decide, ⟨rfl, rfl, ⟨[], rfl⟩, by decide⟩, by decide⟩
theorem wit_IssueWritesBlocks : giving.ready .p0 = true ∧
    bufferRefusal .null ((2 : BitVec 16).toNat * (4 : BitVec 16).toNat) giving.cfg = none ∧
    bufferRefusal .scratch ((2 : BitVec 16).toNat * (4 : BitVec 16).toNat) giving.cfg = none ∧
    giving.CardDelivers ⟨.r1, .write, 25, 8⟩ (2 : BitVec 16).toNat ⟨0x900, 0, 0, 0⟩ pair :=
  ⟨by decide, by decide, by decide, ⟨rfl, rfl, ⟨[], rfl⟩, by decide⟩⟩
theorem wit_FailedResponseMovesNothing : (idle [.silent]).ready .p0 = true ∧
    ((idle [.silent]).nextAnswer, TStatus.timeout) ∈ [(CardAnswer.silent, TStatus.timeout), (.badCrc, .crc), (.ctlFail, .fail)] ∧
    ((idle [.badCrc]).nextAnswer, TStatus.crc) ∈ [(CardAnswer.silent, TStatus.timeout), (.badCrc, .crc), (.ctlFail, .fail)] ∧
    ((idle [.ctlFail]).nextAnswer, TStatus.fail) ∈ [(CardAnswer.silent, TStatus.timeout), (.badCrc, .crc), (.ctlFail, .fail)] := by decide
theorem wit_FailedBlockStopsTheTransfer : ({ idle [tran] with env := ⟨[tran], pair.map BlockAnswer.good ++ [.crcError], [], [], none, [], 0⟩ } : State).env.blocks =
      pair.map BlockAnswer.good ++ BlockAnswer.crcError :: [] ∧ (idle [tran]).ready .p0 = true ∧ (idle [tran]).nextAnswer = .good ⟨0x900, 0, 0, 0⟩ ∧
    pair.length < (3 : BitVec 16).toNat ∧ (∀ b ∈ pair, b.length = (4 : BitVec 16).toNat) ∧
    ∀ buf ∈ [PrimBuf.addr 0x100, .null, .scratch], bufferRefusal buf ((3 : BitVec 16).toNat * (4 : BitVec 16).toNat) (idle [tran]).cfg = none := by
  decide
theorem wit_ArmPrecedesDispatch : (⟨.r1, .read, 17, 0x64⟩ : Descriptor).dir ≠ .none ∧
    ∃ t, exec (.issue .p0 ⟨.r1, .read, 17, 0x64⟩ 1 512 (.addr 0x20001000)) (idle [.silent]) = .next t :=
  ⟨by decide, (ex_of_reaches test_issue_timeout).imp fun _ h => h.1⟩
theorem wit_PlainCommands : plainCommand .stopTransmission = some ⟨.r1b, .none, 12, 0⟩ ∧ (idle [tran]).ready (idle [tran]).seq.cur = true := by
  decide
theorem wit_CapturingCommands : (initSd .c1 []).ready (initSd .c1 []).seq.cur = true := by decide
theorem wit_ApplicationCommands :
    ((initSd .bSd []).ready (initSd .bSd []).seq.cur = true ∧ (initSd .bSd []).appPending (initSd .bSd []).seq.cur = false) ∧
    ((initSd .bSd []).acceptAppCmd.ready .p0 = true ∧ (initSd .bSd []).acceptAppCmd.seq.cur = .p0 ∧
      (initSd .bSd []).acceptAppCmd.appPending .p0 = true) := by decide

/-- A block read and a block written, the card willing. -/
def moving (op : HostOp) : State :=
  { transfer .tData op 1 [] with env := ⟨[tran], [.good block], [.released], [], none, [], 0⟩ }

theorem wit_DataCommandResults :
    (dataCommandOf (moving .readSectors) (.readSingleBlock 9) = some (⟨.r1, .read, 17, 9⟩, 1, 512, .addr 0x20001000) ∧
      (moving .readSectors).ready (moving .readSectors).seq.cur = true ∧
      bufferRefusal (.addr 0x20001000) ((1 : BitVec 16).toNat * (512 : BitVec 16).toNat) (moving .readSectors).cfg = none ∧
      (moving .readSectors).CardDelivers ⟨.r1, .read, 17, 9⟩ (1 : BitVec 16).toNat ⟨0x900, 0, 0, 0⟩ [block] ∧
      ∀ b ∈ [block], b.length = (512 : BitVec 16).toNat) ∧
    (dataCommandOf (moving .writeSectors) (.writeBlock 9) = some (⟨.r1, .write, 24, 9⟩, 1, 512, .addr 0x20001000) ∧
      (moving .writeSectors).CardDelivers ⟨.r1, .write, 24, 9⟩ (1 : BitVec 16).toNat ⟨0x900, 0, 0, 0⟩ [block]) := by
  refine ⟨⟨by decide, by decide, by decide, ⟨rfl, rfl, ⟨[], rfl⟩, by decide⟩, ?_⟩, by decide, rfl, rfl, ⟨[], rfl⟩, by decide⟩
  intro b hb
  rw [List.mem_singleton.1 hb]
  exact block_length
theorem wit_DataCommandsReturn :
    (dataCommandOf (initSd .f1 []) .sendExtCsd = some (⟨.r1, .read, 8, 0⟩, 1, 512, .scratch) ∧
      (initSd .f1 []).ready (initSd .f1 []).seq.cur = true ∧
      bufferRefusal .scratch ((1 : BitVec 16).toNat * (512 : BitVec 16).toNat) (initSd .f1 []).cfg = none) ∧
    dataCommandOf (initSd .gHs []) .switchFunc = some (⟨.r1, .read, 6, 0x80FFFFF1⟩, 1, 64, .scratch) ∧
    dataCommandOf (transfer .tData .writeSectors 7 []) (.writeMultipleBlock 9) = some (⟨.r1, .write, 25, 9⟩, 7, 512, .addr 0x20001000) := by
  decide

/-! Labels of `init`. -/

/-- The sequencer stands at `l` and may step. -/
def stands (s : State) (l : Label) : Bool := s.fetch.isNone && s.seq.busy && !s.ctl.busy && decide (s.seq.pc = l)

theorem at_of_stands {s : State} {l : Label} (h : stands s l = true) : s.At l := by
  simp only [stands, Bool.and_eq_true, Bool.not_eq_true', decide_eq_true_eq, Option.isNone_iff_eq_none] at h
  exact ⟨h.1.1.1, h.1.1.2, h.1.2, h.2⟩

theorem wit_InitGuards : (initSd .iGuard []).At .iGuard ∧ (initSd .iGuard []).seq.op.op = .init ∧
    (initSd .iGuard []).seq.op.devNum = devNumOf .p0 ∧ ((initSd .iGuard []).slot.get .p0).kind = .absent ∧
    (initSd .iGuard []).samplePins.pin.present.get .p0 = false ∧
    ({ initSd .iGuard [] with pin := ⟨⟨true, false⟩, ⟨false, false⟩⟩ } : State).samplePins.pin.present.get .p0 = true ∧
    (({ initSd .iGuard [] with slot := ⟨slotP2, Slot.zero⟩ } : State).slot.get .p0).kind ≠ .absent ∧ 1 < (2 : BitVec 8).toNat :=
  ⟨at_of_stands (by decide), by decide, by decide, by decide, by decide, by decide, by decide, by decide⟩
theorem wit_StageA : (initSd .a1 []).At .a1 ∧
    ((initSd .a2 [tran]).At .a2 ∧ ∃ u, exec .goIdleState (initSd .a2 [tran]) = .next u) ∧
    ((initSd .a3 []).At .a3 ∧
      reaches (exec .sendIfCond (initSd .a3 [word 0x1AA])) (fun u => decide (u.ctl.tstatus = .ok ∧ u.ctl.resp.w0.extractLsb 11 0 = 0x1AA)) = true ∧
      reaches (exec .sendIfCond (initSd .a3 [word 0x1AB])) (fun u => decide (u.ctl.tstatus = .ok ∧ u.ctl.resp.w0.extractLsb 11 0 ≠ 0x1AA)) = true ∧
      reaches (exec .sendIfCond (initSd .a3 [.silent])) (fun u => decide (u.ctl.tstatus = .timeout)) = true ∧
      reaches (exec .sendIfCond (initAt .p1 .a3 Temps.zero Slot.zero [.silent])) (fun u => decide (u.ctl.tstatus = .timeout)) = true ∧
      reaches (exec .sendIfCond (initSd .a3 [.badCrc])) (fun u => decide (u.ctl.tstatus = .crc)) = true) :=
  ⟨at_of_stands (by decide), ⟨at_of_stands (by decide), _, rfl⟩, at_of_stands (by decide), by decide, by decide, by decide, by decide, by decide⟩

/-- At `bSd` or `bMmc`, TIMER's answer scripted. -/
def polling (l : Label) (legacy expired : Bool) (as : List CardAnswer) : State :=
  { initAt .p0 l { Temps.zero with legacyProbe := legacy } Slot.zero [] with env := ⟨as, [], [], [if expired then 0 else 1], none, [], 0⟩ }

theorem wit_OperatingConditions :
    ((polling .bSd true false []).At .bSd ∧
      reaches (sendSdOpCond false 0x3000 (polling .bSd true false [.silent])) (fun u => decide (u.ctl.tstatus = .timeout)) = true ∧
      reaches (sendSdOpCond false 0x3000 (polling .bSd false false [tran, .badCrc])) (fun u => decide (u.ctl.tstatus = .crc)) = true ∧
      reaches (sendSdOpCond false 0x3000 (polling .bSd false false [tran, word 0x80FF8000]))
        (fun u => decide (u.ctl.tstatus = .ok) && u.ctl.resp.w0.getLsbD 31) = true ∧
      reaches (sendSdOpCond false 0x3000 (polling .bSd false true [tran, word 0x00FF8000]))
        (fun u => decide (u.ctl.tstatus = .ok) && !u.ctl.resp.w0.getLsbD 31 && u.expired) = true ∧
      reaches (sendSdOpCond false 0x3000 (polling .bSd false false [tran, word 0x00FF8000]))
        (fun u => decide (u.ctl.tstatus = .ok) && !u.ctl.resp.w0.getLsbD 31 && !u.expired) = true) ∧
    ((polling .bMmc false false []).At .bMmc ∧
      reaches (exec (.sendOpCond 0x3000) (polling .bMmc false false [.silent])) (fun u => decide (u.ctl.tstatus ≠ .ok)) = true ∧
      reaches (exec (.sendOpCond 0x3000) (polling .bMmc false false [word 0xC0FF8080]))
        (fun u => decide (u.ctl.tstatus = .ok) && u.ctl.resp.w0.getLsbD 31) = true ∧
      reaches (exec (.sendOpCond 0x3000) (polling .bMmc false true [word 0x00FF8080]))
        (fun u => decide (u.ctl.tstatus = .ok) && !u.ctl.resp.w0.getLsbD 31 && u.expired) = true ∧
      reaches (exec (.sendOpCond 0x3000) (polling .bMmc false false [word 0x00FF8080]))
        (fun u => decide (u.ctl.tstatus = .ok) && !u.ctl.resp.w0.getLsbD 31 && !u.expired) = true) :=
  ⟨⟨at_of_stands (by decide), by decide, by decide, by decide, by decide, by decide⟩,
    at_of_stands (by decide), by decide, by decide, by decide, by decide⟩

/-- At `bDone` with an OCR. -/
def negotiated (mmc sd2 : Bool) (ocr : Word) : State := initAt .p0 .bDone { Temps.zero with mmc := mmc, sd2 := sd2, ocr := ocr } Slot.zero []

theorem wit_VoltageMustOverlap : (negotiated false true 0).At .bDone ∧
    (negotiated false true 0x80008000).seq.tmp.ocr &&& (0#8 ++ config.vddWindow ++ 0#8) = 0 ∧
    (negotiated false true 0x80100000).seq.tmp.ocr &&& (0#8 ++ config.vddWindow ++ 0#8) ≠ 0 :=
  ⟨at_of_stands (by decide), by decide, by decide⟩
theorem wit_KindFromOcr : (negotiated false true 0xC0FF8000).At .bDone ∧
    (0xC0FF8000 : Word) &&& (0#8 ++ config.vddWindow ++ 0#8) ≠ 0 ∧ (0xC0FF8080 : Word).extractLsb 30 29 = 2 ∧
    (0xE0FF8080 : Word).extractLsb 30 29 ≠ 2 ∧ (0xC0FF8000 : Word).getLsbD 30 = true ∧ (0x80FF8000 : Word).getLsbD 30 = false :=
  ⟨at_of_stands (by decide), by decide, by decide, by decide, by decide, by decide⟩
theorem wit_IdentifyAndSelect : (initSd .c1 []).At .c1 ∧ (initSd .c2 []).At .c2 ∧ (initSd .e1 []).At .e1 ∧
    (∃ u, exec .allSendCid (initSd .c1 [tran]) = .next u) ∧ (∃ u, exec .sendRelativeAddr (initSd .c2 [tran]) = .next u) ∧
    (∃ u, exec (.setRelativeAddr 1) (initSd .c2 [tran]) = .next u) ∧
    reaches (exec (.selectCard 0) (initSd .e1 [.silent])) (fun u => decide (u.ctl.tstatus ≠ .ok)) = true ∧
    reaches (exec (.selectCard 0) (initSd .e1 [word 0x02000700])) (fun u => decide (u.ctl.tstatus = .ok) && u.ctl.resp.w0.getLsbD 25) = true ∧
    reaches (exec (.selectCard 0) (initSd .e1 [word 0x700])) (fun u => decide (u.ctl.tstatus = .ok) && !u.ctl.resp.w0.getLsbD 25) = true :=
  ⟨at_of_stands (by decide), at_of_stands (by decide), at_of_stands (by decide), ⟨_, rfl⟩, ⟨_, rfl⟩, ⟨_, rfl⟩, by decide, by decide, by decide⟩

/-- At `d1` after `set_clock`. -/
def clocked (as : List CardAnswer) : State :=
  { initSd .d1 as with
    ctl := { (initSd .d1 as).ctl with clk := (initSd .d1 as).ctl.clk.set .p0 25000000 }
    seq := { (initSd .d1 as).seq with w := { (initSd .d1 as).seq.w with clockHz := 25000000 } }
    hist := [.setClock .p0 25000000] }

theorem wit_CsdStep : (initSd .d1 []).At .d1 ∧
    reaches (exec (.sendCsd 0) (clocked [.silent])) (fun u => decide (u.ctl.tstatus ≠ .ok)) = true ∧
    reaches (exec (.sendCsd 0) (clocked [.good ⟨0x0A400073, 0xEDC87F80, 0x5B590000, 0x400E0032⟩]))
      (fun u => decide (u.ctl.tstatus = .ok) && decide (usableSectors (parseCsd u.seq.tmp.csd) false = some 62333952)) = true ∧
    reaches (exec (.sendCsd 0) (clocked [tran]))
      (fun u => decide (u.ctl.tstatus = .ok) && decide (usableSectors (parseCsd u.seq.tmp.csd) false = none)) = true :=
  ⟨at_of_stands (by decide), by decide, by decide, by decide⟩

/-- The commands that read to the scratch, with one block scripted. -/
def scratching (l : Label) (ccc : BitVec 12) (as : List CardAnswer) (blk : List Byte) : State :=
  { initAt .p0 l Temps.zero { Slot.zero with ccc := ccc } [] with env := ⟨as, [.good blk], [], [], none, [], 0⟩ }

theorem wit_ExtCsdStep : (scratching .f1 0 [] []).At .f1 ∧
    reaches (exec .sendExtCsd (scratching .f1 0 [.badCrc] block)) (fun u => decide (u.ctl.tstatus ≠ .ok)) = true ∧
    reaches (exec .sendExtCsd (scratching .f1 0 [tran] block))
      (fun u => decide (u.ctl.tstatus = .ok ∧ u.seq.scratch.readByte 215 = 0x5A)) = true ∧
    reaches (exec .sendExtCsd (scratching .f1 0 [tran] (List.replicate 512 0)))
      (fun u => decide (u.ctl.tstatus = .ok ∧ u.seq.scratch = [] ∧ u.seq.w.sectorCount = 0)) = true :=
  ⟨at_of_stands (by decide), by decide +kernel, by decide +kernel, by decide +kernel⟩

/-- An MMC at a label of stage G. -/
def tuningMmc (l : Label) (hsCap : Bool) (as : List CardAnswer) : State := initAt .p0 l { Temps.zero with mmc := true, hsCap := hsCap } Slot.zero as

theorem wit_HighSpeedStep : (scratching .gHs 0x400 [] []).At .gHs ∧
    ((scratching .gHs 0x1B5 [] []).seq.tmp.mmc = false ∧ (scratching .gHs 0x1B5 [] []).seq.w.ccc.getLsbD 10 = false) ∧
    ((tuningMmc .gHs false []).seq.tmp.mmc = true ∧ (tuningMmc .gHs false []).seq.tmp.hsCap = false) ∧
    ((scratching .gHs 0x400 [] []).seq.w.ccc.getLsbD 10 = true ∧
      reaches (exec .switchFunc (scratching .gHs 0x400 [tran] (List.replicate 64 1)))
        (fun u => decide (u.ctl.tstatus = .ok ∧ (u.seq.scratch.readByte 16).extractLsb 3 0 = 1)) = true ∧
      reaches (exec .switchFunc (scratching .gHs 0x400 [.badCrc] [])) (fun u => decide (u.ctl.tstatus ≠ .ok)) = true) ∧
    (reaches (exec (.switch 185 1) (tuningMmc .gHs true [.badCrc])) (fun u => decide (u.ctl.tstatus ≠ .ok)) = true ∧
      reaches (exec (.switch 185 1) (tuningMmc .gHs true [tran, tran])) (fun u => decide (u.ctl.tstatus = .ok) &&
        reaches (exec (.sendStatus u.seq.w.rca) u) (fun v => decide (v.ctl.tstatus = .ok) && switchOk v.ctl.resp.w0)) = true ∧
      reaches (exec (.switch 185 1) (tuningMmc .gHs true [tran, word 0x980])) (fun u => decide (u.ctl.tstatus = .ok) &&
        reaches (exec (.sendStatus u.seq.w.rca) u) (fun v => !switchOk v.ctl.resp.w0)) = true) :=
  ⟨at_of_stands (by decide), by decide, by decide, ⟨by decide, by decide +kernel, by decide⟩, by decide, by decide, by decide⟩
theorem wit_FourBitSteps : (initSd .gCd []).At .gCd ∧ (initSd .gBw []).At .gBw ∧ (∃ u, sendClrCardDetect (initSd .gCd []) = .next u) ∧
    reaches (sendSdBusWidth (initSd .gBw [.silent])) (fun u => decide (u.ctl.tstatus ≠ .ok)) = true ∧
    reaches (sendSdBusWidth (initSd .gBw [tran, tran, tran])) (fun u => decide (u.ctl.tstatus = .ok) &&
      reaches (exec (.sendStatus u.seq.w.rca) u) (fun v => decide (v.ctl.tstatus = .ok) && statusOk v.ctl.resp.w0)) = true ∧
    reaches (exec (.switch 183 1) (tuningMmc .gBw false [tran, word 0x980])) (fun u => decide (u.ctl.tstatus = .ok) &&
      reaches (exec (.sendStatus u.seq.w.rca) u) (fun v => !switchOk v.ctl.resp.w0)) = true :=
  ⟨at_of_stands (by decide), at_of_stands (by decide), ⟨_, rfl⟩, by decide, by decide, by decide⟩
theorem wit_CommitStep : (initSd .commit []).At .commit := at_of_stands (by decide)
theorem wit_InitFailurePath : (initSd .fail []).At .fail ∧ ((initSd .fail []).slot.get Port.p0.other).kind = .absent ∧
    (({ initSd .fail [] with slot := ⟨Slot.zero, slotP2⟩ } : State).slot.get Port.p0.other).kind ≠ .absent :=
  ⟨at_of_stands (by decide), by decide, by decide⟩

/-! Labels of a transfer. -/

/-- A transfer standing at its guards, with slot and request in place. -/
def guarded (sl : Slot) (r : Request) : State := { transfer .tGuard r.op 1 [] with slot := ⟨sl, Slot.zero⟩, seq := { (transfer .tGuard r.op 1 []).seq with op := r } }

theorem wit_TransferGuardOrder : (transfer .tGuard .readSectors 1 []).At .tGuard ∧ 1 < (2 : BitVec 8).toNat ∧
    ((transfer .tGuard .readSectors 1 []).slot.get .p1).kind = .absent ∧
    ((transfer .tGuard .readSectors 0 []).seq.op.count = 0) ∧
    ({ slotP2 with sectorCount := 100 } : Slot).sectorCount.toNat < (100 : Word).toNat + (1 : BitVec 16).toNat ∧
    2 ^ 31 < ((4194303 : Word).toNat + (2 : BitVec 16).toNat) * 512 ∧ ¬(2 ^ 31 < ((4194303 : Word).toNat + (1 : BitVec 16).toNat) * 512) ∧
    (transfer .tGuard .writeSectors 1 []).seq.op.op ≠ .readSectors ∧ ({ slotP2 with writeProtect := 1 } : Slot).writeProtect ≠ 0 :=
  ⟨at_of_stands (by decide), by decide, by decide, by decide, by decide, by decide, by decide, by decide, by decide⟩
theorem wit_TransferAdmitted :
    (let s := guarded slotP2 ⟨.writeSectors, 0, 1, 62333951, .addr 0xFFFFFE00⟩
    s.At .tGuard ∧ s.seq.op.devNum = devNumOf .p0 ∧ (s.slot.get .p0).kind ≠ .absent ∧ s.seq.op.count ≠ 0 ∧
      s.seq.op.sect.toNat + s.seq.op.count.toNat ≤ (s.slot.get .p0).sectorCount.toNat ∧ (s.slot.get .p0).addressing ≠ .byte ∧
      (s.slot.get .p0).writeProtect = 0 ∧ bufferBase s.seq.op.buf s.cfg % 4 = 0 ∧
      bufferBase s.seq.op.buf s.cfg + s.seq.op.count.toNat * 512 ≤ 2 ^ s.cfg.addrBits) ∧
    0x20001001 % 4 ≠ 0 ∧ 2 ^ config.addrBits < 0xFFFFFE00 + (2 : BitVec 16).toNat * 512 :=
  ⟨⟨at_of_stands (by decide), by decide, by decide, by decide, by decide, by decide, by decide, by decide, by decide⟩, by decide, by decide⟩

/-- A transfer where SET_BLOCK_COUNT is in use. -/
def presetting (as : List CardAnswer) : State := { transfer .tPre .readSectors 2 as with cfg := { config with useCmd23 := true } }

theorem wit_CountAndStopSteps : (presetting []).At .tPre ∧ (presetting []).curSlot.kind = .sdhc ∧ 1 < (presetting []).seq.op.count.toNat ∧
    (transfer .tPre .readSectors 2 []).cfg.useCmd23 = false ∧
    reaches (exec (.setBlockCount 2) (presetting [tran])) (fun u => decide (u.ctl.tstatus = .ok)) = true ∧
    reaches (exec (.setBlockCount 2) (presetting [.silent])) (fun u => decide (u.ctl.tstatus ≠ .ok)) = true ∧
    ((transfer .tData .readSectors 2 []).At .tData ∧ (transfer .tData .readSectors 2 []).cfg.useCmd23 = false ∧
      reaches (exec (.readMultipleBlock 0) { transfer .tData .readSectors 2 [] with env := ⟨[tran], [.good block, .good block], [], [], none, [], 0⟩ })
        (fun u => decide (u.ctl.tstatus = .ok)) = true ∧
      reaches (exec (.readMultipleBlock 0) { presetting [] with env := ⟨[tran], [.good block, .good block], [], [], none, [], 0⟩ })
        (fun u => decide (u.ctl.tstatus = .ok)) = true ∧
      ¬(1 < (moving .writeSectors).seq.op.count.toNat) ∧
      reaches (exec (.writeBlock 0) (moving .writeSectors)) (fun u => decide (u.ctl.tstatus = .ok)) = true ∧
      reaches (exec (.writeMultipleBlock 0) (transfer .tData .writeSectors 2 [.badCrc])) (fun u => decide (u.ctl.tstatus ≠ .ok)) = true) ∧
    (transfer .tStop .readSectors 2 []).At .tStop ∧
    reaches (exec .stopTransmission { transfer .tStop .readSectors 2 [] with env := ⟨[tran], [], [.released], [], none, [], 0⟩ })
      (fun u => decide (u.ctl.tstatus = .ok)) = true ∧
    reaches (exec .stopTransmission (transfer .tStop .readSectors 2 [.badCrc])) (fun u => decide (u.ctl.tstatus ≠ .ok)) = true :=
  ⟨at_of_stands (by decide), by decide, by decide, by decide, by decide, by decide,
    ⟨at_of_stands (by decide), by decide, by decide +kernel, by decide +kernel, by decide, by decide +kernel, by decide⟩,
    at_of_stands (by decide), by decide, by decide⟩
theorem wit_DataStep : (transfer .tData .readSectors 2 []).At .tData ∧ 1 < (transfer .tData .readSectors 2 []).seq.op.count.toNat ∧
    ¬(1 < (transfer .tData .writeSectors 1 []).seq.op.count.toNat) ∧
    reaches (exec (.readMultipleBlock 0) { transfer .tData .readSectors 2 [] with env := ⟨[tran], [.good block, .good block], [], [], none, [], 0⟩ })
      (fun u => decide (u.ctl.tstatus = .ok)) = true ∧
    reaches (exec (.readMultipleBlock 0) (transfer .tData .readSectors 2 [.badCrc])) (fun u => decide (u.ctl.tstatus = .crc)) = true ∧
    reaches (exec (.readSingleBlock 0) (transfer .tData .readSectors 1 [.badCrc])) (fun u => decide (u.ctl.tstatus = .crc)) = true ∧
    (transfer .tData .readSectors 2 []).seq.tmp.retry < config.readCrcRetries ∧
    reaches (exec (.writeMultipleBlock 0) (transfer .tData .writeSectors 2 [.badCrc])) (fun u => decide (u.ctl.tstatus ≠ .ok)) = true ∧
    reaches (exec (.writeBlock 0) (moving .writeSectors)) (fun u => decide (u.ctl.tstatus = .ok)) = true :=
  ⟨at_of_stands (by decide), by decide, by decide, by decide +kernel, by decide, by decide, by decide, by decide, by decide +kernel⟩

/-- A transfer in recovery. -/
def recovering (poll : Bool) (err : ErrorCode) (expired : Bool) (as : List CardAnswer) : State :=
  { transfer .tRecover .readSectors 2 [] with
    seq := { (transfer .tRecover .readSectors 2 []).seq with polling := poll, tmp := { Temps.zero with err := err } }
    env := ⟨as, [], [.released], [if expired then 0 else 1], none, [], 0⟩ }

theorem wit_RecoveryStep : (recovering false .none false []).At .tRecover ∧ (recovering true .none false []).At .tRecover ∧
    (∃ u, exec .stopTransmission (recovering false .none false [tran]) = .next u) ∧
    reaches (exec (.sendStatus 0xAAAA) (recovering true .none false [word 0xB00]))
      (fun u => decide (u.ctl.tstatus = .ok ∧ u.ctl.resp.w0.extractLsb 12 9 ≠ 4) && !u.expired) = true ∧
    reaches (exec (.sendStatus 0xAAAA) (recovering true .none true [word 0xB00]))
      (fun u => decide (u.ctl.tstatus = .ok ∧ u.ctl.resp.w0.extractLsb 12 9 ≠ 4 ∧ u.seq.tmp.err = .none) && u.expired) = true ∧
    reaches (exec (.sendStatus 0xAAAA) (recovering true .sectRw true [word 0xB00]))
      (fun u => decide (u.ctl.tstatus = .ok ∧ u.ctl.resp.w0.extractLsb 12 9 ≠ 4 ∧ u.seq.tmp.err ≠ .none) && u.expired) = true ∧
    reaches (exec (.sendStatus 0xAAAA) (recovering true .none false [tran]))
      (fun u => decide (u.ctl.resp.w0.extractLsb 12 9 = 4 ∧ u.seq.tmp.err = .none)) = true ∧
    reaches (exec (.sendStatus 0xAAAA) (recovering true .sectRw false [.silent]))
      (fun u => decide (u.ctl.tstatus ≠ .ok ∧ u.seq.tmp.err ≠ .none)) = true :=
  ⟨at_of_stands (by decide), at_of_stands (by decide), ⟨_, rfl⟩, by decide, by decide, by decide, by decide, by decide⟩
theorem wit_FinalStatusStep : (transfer .tStatus .readSectors 1 []).At .tStatus ∧
    reaches (exec (.sendStatus 0xAAAA) (transfer .tStatus .readSectors 1 [.badCrc])) (fun u => decide (u.ctl.tstatus ≠ .ok)) = true ∧
    reaches (exec (.sendStatus 0xAAAA) (transfer .tStatus .readSectors 1 [word 0x04000F00]))
      (fun u => decide (u.ctl.tstatus = .ok ∧ u.ctl.resp.w0 &&& 0x64F80000 ≠ 0)) = true ∧
    reaches (exec (.sendStatus 0xAAAA) (transfer .tStatus .readSectors 1 [word 0xF00]))
      (fun u => decide (u.ctl.tstatus = .ok ∧ u.ctl.resp.w0 &&& 0x64F80000 = 0 ∧ u.ctl.resp.w0.extractLsb 12 9 ≠ 4)) = true ∧
    reaches (exec (.sendStatus 0xAAAA) (transfer .tStatus .readSectors 1 [tran]))
      (fun u => decide (u.ctl.tstatus = .ok ∧ u.ctl.resp.w0 &&& 0x64F80000 = 0 ∧ u.ctl.resp.w0.extractLsb 12 9 = 4)) = true :=
  ⟨at_of_stands (by decide), by decide, by decide, by decide, by decide⟩

/-! The whole machine. -/

theorem wit_StoredCapacityIsExact : usableSectors (parseCsd 0x002600321B5903CFC0038000024000AB) false = some 1998848 ∧
    (0x002600321B5903CFC0038000024000AB : BitVec 128).extractLsb 127 126 = 0 ∧
    usableSectors (parseCsd 0x400E00325B590000EDC87F800A400073) false = some 62333952 ∧
    (0x400E00325B590000EDC87F800A400073 : BitVec 128).extractLsb 127 126 = 1 := by decide
theorem wit_StepKeepsSound : (idle [tran]).Sound ∧ ∃ t, step { idle [tran] with fetch := some (.cd 0x040DAAAA0000) } = .next t :=
  ⟨(idle_coherent ⟨[tran], [], [], [], none, [], 0⟩ none).1, _, rfl⟩
theorem wit_StepKeepsCoherent : (shown (.hr 0x0600000100000000 (.addr 0))).Coherent ∧ (shown (.hr 0x0600000100000000 (.addr 0))).HostOnly ∧
    ∃ t, step (shown (.hr 0x0600000100000000 (.addr 0))) = .next t :=
  ⟨idle_coherent _ _, trivial, _, rfl⟩
theorem wit_SlotsChangeOnlyInInitAndDeinit : (shown (.hr 0x0100000000000000 .null)).Sound ∧
    ∃ t, step (shown (.hr 0x0100000000000000 .null)) = .next t ∧ t.slot.get .p0 ≠ (shown (.hr 0x0100000000000000 .null)).slot.get .p0 :=
  ⟨(idle_coherent _ _).1, _, rfl, by decide⟩
theorem wit_TransfersOnlyReadTheSlot : (transfer .tStatus .readSectors 1 [tran]).fetch = none ∧
    (transfer .tStatus .readSectors 1 [tran]).seq.busy = true ∧ (transfer .tStatus .readSectors 1 [tran]).seq.pc.inTransfer = true ∧
    ∃ t, step (transfer .tStatus .readSectors 1 [tran]) = .next t :=
  ⟨rfl, rfl, rfl, _, rfl⟩

/-- A read of 512 bytes at the top of host memory, at its guards. -/
theorem wit_RequestsAlwaysStep : (guarded slotP2 ⟨.readSectors, 0, 1, 100, .addr 0xFFFFFE00⟩).Coherent ∧
    (guarded slotP2 ⟨.readSectors, 0, 1, 100, .addr 0xFFFFFE00⟩).ConfigUsable ∧
    (guarded slotP2 ⟨.readSectors, 0, 1, 100, .addr 0xFFFFFE00⟩).fetch = none ∧
    rangeRefusal (bufferBase (.addr 0xFFFFFE00) config) ((1 : BitVec 16).toNat * 512) config = none := by
  have h := idle_coherent ⟨[], [], [], [], none, [], 0⟩ none
  refine ⟨⟨⟨h.1.1, .inr (.inl ⟨rfl, .inl rfl⟩), h.1.2.2.1, h.1.2.2.2.1, h.1.2.2.2.2.1, rfl, h.1.2.2.2.2.2.2⟩, h.2.1, fun _ k => ?_, fun _ => rfl⟩, ?_,
    rfl, by decide⟩
  · exact absurd k (by decide)
  · unfold State.ConfigUsable
    decide

/-- A coherent machine in recovery: a polling loop that has asked nothing yet. -/
theorem wit_RequestsAlwaysStep_polling :
    (let s : State := { guarded slotP2 ⟨.readSectors, 0, 2, 100, .addr 0x20001000⟩ with
      seq := { (guarded slotP2 ⟨.readSectors, 0, 2, 100, .addr 0x20001000⟩).seq with pc := .tRecover } }
    s.Coherent ∧ s.fetch = none ∧ s.seq.busy = true ∧ s.seq.pc ∈ [Label.bSd, .bMmc, .tRecover] ∧ s.env.budget = none) := by
  have h := idle_coherent ⟨[], [], [], [], none, [], 0⟩ none
  refine ⟨⟨⟨h.1.1, .inr (.inr (.inr ⟨rfl, .inl rfl, rfl, ?_, ?_, ?_⟩)), h.1.2.2.1, h.1.2.2.2.1, h.1.2.2.2.2.1, rfl, h.1.2.2.2.2.2.2⟩, h.2.1,
    fun _ k => absurd k (by decide), fun _ => rfl⟩, rfl, rfl, ?_, rfl⟩ <;> decide
theorem wit_SingleBlockReadReturnsTheBlock :
    (let s : State := { idle [] with
      env := ⟨[tran, tran], [.good block], [], [], none, [], 0⟩, fetch := some (.hr (6#8 ++ devNumOf .p0 ++ 1#16 ++ 62333951#32) (.addr 0xFFFFFE00)) }
    s.Coherent ∧ s.seq.busy = false ∧ (s.slot.get .p0).kind ≠ .absent ∧
      (62333951 : Word).toNat + 1 ≤ (s.slot.get .p0).sectorCount.toNat ∧ (s.slot.get .p0).addressing ≠ .byte ∧
      0xFFFFFE00 % 4 = 0 ∧ 0xFFFFFE00 + 512 ≤ 2 ^ s.cfg.addrBits ∧ block.length = 512 ∧ statusOk 0x900 = true) :=
  ⟨idle_coherent _ _, rfl, by decide, by decide, by decide, by decide, by decide, block_length, by decide⟩

theorem wit_SingleBlockWriteSendsTheBuffer :
    (let s : State := { idle [] with
      env := ⟨[tran, tran], [.good []], [.released], [], none, [], 0⟩, fetch := some (.hr (7#8 ++ devNumOf .p0 ++ 1#16 ++ 0#32) (.addr 0)) }
    s.Coherent ∧ s.seq.busy = false ∧ (s.slot.get .p0).kind ≠ .absent ∧ (s.slot.get .p0).writeProtect = 0 ∧
      (0 : Word).toNat + 1 ≤ (s.slot.get .p0).sectorCount.toNat ∧ (s.slot.get .p0).addressing ≠ .byte ∧
      s.env.busy = [.released] ∧ statusOk 0x900 = true) :=
  ⟨idle_coherent _ _, rfl, by decide, by decide, by decide, by decide, by decide, by decide⟩

/-- A powered machine with a card in port 0 that answers the commands of R224 well. -/
def inserted : State :=
  { State.reset with
    pin := ⟨⟨true, false⟩, ⟨false, false⟩⟩
    cfg := config
    fetch := some (.hr (0#8 ++ devNumOf .p0 ++ 0#48) .null)
    env :=
      ⟨[tran, word 0x1AA, word 0x120, word 0xC0FF8000, .good ⟨0x780123FF, 0x80123456, 0x4C333247, 0x03534453⟩, word 0xAAAA0500,
        .good ⟨0x0A400073, 0xEDC87F80, 0x1B590000, 0x400E0032⟩, word 0x700, word 0x920, word 0x920, word 0x920, word 0x920, tran],
        [], [.released], [], none, [], 0⟩ }

theorem wit_InitBringsUpAnSdCard : inserted.Coherent ∧ inserted.seq.busy = false ∧ inserted.slot.get .p0 = Slot.zero ∧ inserted.env.pins = [] ∧
    inserted.pin.present.get .p0 = true ∧ inserted.env.answers.length = 13 ∧ inserted.cfg.sustainsDefaultClock = true ∧
    (0x1AA : Word).extractLsb 11 0 = 0x1AA ∧ (0xC0FF8000 : Word).getLsbD 31 = true ∧ (0xC0FF8000 : Word).getLsbD 30 = true ∧
    (0xC0FF8000 : Word) &&& (0#8 ++ inserted.cfg.vddWindow ++ 0#8) ≠ 0 ∧
    (let csd : Words4 := ⟨0x0A400073, 0xEDC87F80, 0x1B590000, 0x400E0032⟩
    csd.toBits.extractLsb 127 126 = 1 ∧ csd.toBits.extractLsb 69 48 ≠ 0x3FFFFF ∧ csd.toBits.getLsbD 94 = false) ∧
    (0x700 : Word).getLsbD 25 = false ∧ statusOk 0x900 = true := by
  refine ⟨⟨⟨fun d => ?_, rfl, ⟨rfl, rfl, rfl⟩, fun p => ?_, rfl, rfl, by decide⟩, fun d h => ?_, fun h => ?_, fun _ => rfl⟩, by decide⟩
  · cases d <;> exact zero_sound
  · cases p <;> decide
  · cases d <;> exact absurd rfl h
  · exact absurd h (by decide)

end Sys2Proof.Tests
end

section
/-! The three branches of `step`, one equation each, and the obligation of 00_scope.md that its decoded branch settles. -/

namespace Sys2Proof.Machine

/-- Without a presented word the sequencer has the step (10_state.md R34). -/
theorem step_of_fetch_none {s : State} (hfetch : s.fetch = none) : step s = runSequencer s := by
  rw [step, hfetch]

/-- A presented word that selects no operation is refused with the decoder's reason (30_encoding.md R107). -/
theorem step_of_decode_error {s : State} {w : OpWord} {e : DecodeError} (hfetch : s.fetch = some w)
    (hdecode : decode (s.appPending s.seq.cur) w = .error e) : step s = .refused (refusalOf e) := by
  simp only [step, hfetch, hdecode]

/-- A presented word that selects an operation is taken from the interface before the operation runs (30_encoding.md R80, R104, R106). -/
theorem step_of_decode_ok {s : State} {w : OpWord} {i : Instr} (hfetch : s.fetch = some w)
    (hdecode : decode (s.appPending s.seq.cur) w = .ok i) : step s = exec i { s with fetch := none } := by
  simp only [step, hfetch, hdecode]

/-- Settles O5: the statement is the decoded branch of `step`. -/
theorem stepRunsDecoded : Obligations.StepRunsDecoded :=
  fun _ _ _ hfetch hdecode => step_of_decode_ok hfetch hdecode

end Sys2Proof.Machine
end

section
/-! Rules for reasoning about a step: what every next state of a step satisfies, and the parts of the two invariants that do not speak of
the sequencer's label. -/

namespace Sys2Proof.Machine

/-! ### Next states -/

/-- Every next state that `r` gives satisfies `P`; a fault or a refusal gives none. -/
def Ensures (r : Step) (P : State → Prop) : Prop := ∀ t, r = .next t → P t

theorem ensures_next {s : State} {P : State → Prop} (h : P s) : Ensures (.next s) P := by
  rintro t ⟨⟩
  exact h

theorem ensures_fault {f : Fault} {P : State → Prop} : Ensures (.fault f) P := fun _ h => by cases h

theorem ensures_refused {r : Refusal} {P : State → Prop} : Ensures (.refused r) P := fun _ h => by cases h

theorem Ensures.mono {r : Step} {P Q : State → Prop} (h : Ensures r P) (k : ∀ t, P t → Q t) : Ensures r Q :=
  fun t ht => k t (h t ht)

/-- The rule of sequencing. -/
theorem Ensures.bind {r : Step} {f : State → Step} {P Q : State → Prop} (h : Ensures r P) (k : ∀ t, P t → Ensures (f t) Q) :
    Ensures (andThen r f) Q := by
  cases r with
  | next s => exact k s (h s rfl)
  | fault => exact ensures_fault
  | refused => exact ensures_refused

theorem whenIdle_ensures {s : State} {r : Step} {P : State → Prop} (h : Ensures r P) : Ensures (whenIdle s r) P := by
  unfold whenIdle
  split
  · exact ensures_refused
  · exact h

theorem whenFree_ensures {s : State} {r : Step} {P : State → Prop} (h : Ensures r P) : Ensures (whenFree s r) P := by
  unfold whenFree
  split
  · exact ensures_refused
  · exact h

theorem whenOpen_ensures {p : Port} {s : State} {r : Step} {P : State → Prop} (h : Ensures r P) : Ensures (whenOpen p s r) P := by
  refine whenFree_ensures ?_
  split
  · exact h
  · exact ensures_refused

/-- A request that has a next state was presented while none was in flight (20_memory.md R75). -/
theorem idle_of_whenIdle {s t : State} {r : Step} (h : whenIdle s r = .next t) : s.seq.busy = false := by
  unfold whenIdle at h
  split at h
  · cases h
  · simpa using ‹¬s.seq.busy = true›

/-! ### The part of `Sound` that does not speak of the sequencer -/

/-- Slots, controller, engine and memory are as the invariant asks, wherever the sequencer stands. -/
def State.BaseSound (s : State) : Prop :=
  (∀ d, (s.slot.get d).Sound) ∧ s.ctl.Quiet s.de ∧ s.ctl.Legal ∧ s.MemoryWf ∧ s.cfg.clkHsHz ≠ 0

theorem sound_iff (s : State) : s.Sound ↔ s.BaseSound ∧ s.SequencerSound := by
  unfold State.Sound State.BaseSound State.MemoryWf
  tauto

theorem slotZero_sound : Slot.zero.Sound := .inl rfl

theorem slotZero_clean : Slot.zero.Clean := by
  unfold Slot.Clean
  decide

/-- A slot that reads as absent is all zeros (10_state.md R31). -/
theorem Slot.Sound.eq_zero {w : Slot} (h : w.Sound) (k : w.kind = .absent) : w = Slot.zero :=
  h.resolve_right fun i => i.1 k

/-- A slot that does not read as absent is initialized (10_state.md R31). -/
theorem Slot.Sound.initialized {w : Slot} (h : w.Sound) (k : w.kind ≠ .absent) : w.Initialized :=
  h.resolve_left fun z => k (by rw [z]; rfl)

theorem legal_setClock {c : Controller} (h : c.Legal) (p : Port) {hz : Word} (k : hz ≠ 0) :
    Controller.Legal { c with sel := p, clk := c.clk.set p hz, clkSet := c.clkSet.set p true } := by
  intro q
  refine ⟨?_, (h q).2⟩
  simp only [pair_get_set]
  split
  · exact fun _ => k
  · exact (h q).1

theorem legal_setWidth {c : Controller} (h : c.Legal) (p : Port) {w : BitVec 3} (k : w = 1 ∨ w = 4) :
    Controller.Legal { c with sel := p, width := c.width.set p w, widthSet := c.widthSet.set p true } := by
  intro q
  refine ⟨(h q).1, ?_⟩
  simp only [pair_get_set]
  split
  · exact fun _ => k
  · exact (h q).2

theorem State.BaseSound.setClock {s : State} (h : s.BaseSound) (p : Port) {hz : Word} (k : hz ≠ 0) : (setClockRun p hz s).BaseSound := by
  obtain ⟨slots, quiet, legal, memory, hs⟩ := h
  exact ⟨slots, quiet, legal_setClock legal p k, memory, hs⟩

theorem State.BaseSound.setWidth {s : State} (h : s.BaseSound) (p : Port) {w : BitVec 3} (k : w = 1 ∨ w = 4) :
    (setWidthRun p w s).BaseSound := by
  obtain ⟨slots, quiet, legal, memory, hs⟩ := h
  exact ⟨slots, quiet, legal_setWidth legal p k, memory, hs⟩

theorem State.BaseSound.ctlReset {s : State} (h : s.BaseSound) : (ctlResetRun s).BaseSound := by
  obtain ⟨slots, _, _, memory, hs⟩ := h
  have none_programmed : ∀ p, (Pair.mk false false).get p = false := fun p => by cases p <;> rfl
  refine ⟨slots, ⟨rfl, rfl, rfl⟩, fun p => ⟨fun k => ?_, fun k => ?_⟩, memory, hs⟩
  · exact absurd ((none_programmed p).symm.trans k) (by decide)
  · exact absurd ((none_programmed p).symm.trans k) (by decide)

theorem State.BaseSound.setSlot {s : State} (h : s.BaseSound) (p : Port) {v : Slot} (k : v.Sound) : (s.setSlot p v).BaseSound := by
  obtain ⟨slots, rest⟩ := h
  refine ⟨fun d => ?_, rest⟩
  simp only [setSlot_slot, pair_get_set]
  split
  · exact k
  · exact slots d

/-! ### The part of `Coherent` beyond `Sound` -/

/-- Slots and port registers agree, and no CMD55 is outstanding (10_state.md R53, R49). -/
def State.Agrees (s : State) : Prop := s.SlotsMatch ∧ s.WorkMatches ∧ s.NoAppPending

theorem coherent_iff (s : State) : s.Coherent ↔ s.Sound ∧ s.Agrees := Iff.rfl

/-- An event that is no command leaves no CMD55 outstanding where none was. -/
theorem State.NoAppPending.log {s : State} (h : s.NoAppPending) {e : Event} (k : ∀ p, followsAppCmd p false e = false) :
    (s.log e).NoAppPending := by
  intro p
  rw [log_appPending, h p, k p]

theorem programmedWith_setClock {c : Controller} {p : Port} {old hz : Word} {w : BitVec 3} (h : c.ProgrammedWith p old w) :
    Controller.ProgrammedWith { c with sel := p, clk := c.clk.set p hz, clkSet := c.clkSet.set p true } p hz w := by
  obtain ⟨_, widthSet, _, width⟩ := h
  exact ⟨pair_get_set_self _ _ _, widthSet, pair_get_set_self _ _ _, width⟩

theorem programmedWith_setWidth {c : Controller} {p : Port} {hz : Word} {old w : BitVec 3} (h : c.ProgrammedWith p hz old) :
    Controller.ProgrammedWith { c with sel := p, width := c.width.set p w, widthSet := c.widthSet.set p true } p hz w := by
  obtain ⟨clkSet, _, clk, _⟩ := h
  exact ⟨clkSet, pair_get_set_self _ _ _, clk, pair_get_set_self _ _ _⟩

/-- Both registers of a port written one after the other are programmed, whatever they held. -/
theorem programmedWith_program (p : Port) (hz : Word) (w : BitVec 3) (s : State) :
    (setWidthRun p w (setClockRun p hz s)).ctl.ProgrammedWith p hz w := by
  simp [Controller.ProgrammedWith]

/-- Programming one port does not disturb the other (40_controller_primitive.md R135). -/
theorem programmedWith_setClock_of_ne {c : Controller} {p q : Port} {hz x : Word} {w : BitVec 3} (hq : q ≠ p)
    (h : c.ProgrammedWith q hz w) :
    Controller.ProgrammedWith { c with sel := p, clk := c.clk.set p x, clkSet := c.clkSet.set p true } q hz w := by
  simpa only [Controller.ProgrammedWith, pair_get_set_of_ne _ _ hq] using h

theorem programmedWith_setWidth_of_ne {c : Controller} {p q : Port} {hz : Word} {w x : BitVec 3} (hq : q ≠ p)
    (h : c.ProgrammedWith q hz w) :
    Controller.ProgrammedWith { c with sel := p, width := c.width.set p x, widthSet := c.widthSet.set p true } q hz w := by
  simpa only [Controller.ProgrammedWith, pair_get_set_of_ne _ _ hq] using h

/-! ### Both parts together

`C` says when agreement is at stake: `False` for a machine at whose primitive anybody may call, `True` for one that is driven by host
requests. So one pass over the steps serves both invariants; the slot table `σ` says what the step makes of the slots. -/

/-- What holds at every point inside a step, whatever the sequencer's label. -/
def Ground (C : Prop) (σ : Pair Slot) (s : State) : Prop :=
  s.slot = σ ∧ s.BaseSound ∧ (C → s.SlotsMatch ∧ s.NoAppPending)

/-- What a step leaves: the slot table `σ` and the invariants. -/
def Kept (C : Prop) (σ : Pair Slot) (s : State) : Prop :=
  s.slot = σ ∧ s.Sound ∧ (C → s.Agrees)

theorem Kept.of_sound {C : Prop} {s : State} (hC : ¬C) (h : s.Sound) : Kept C s.slot s :=
  ⟨rfl, h, fun c => absurd c hC⟩

theorem Ground.of_sound {C : Prop} {s : State} (h : s.Sound) (k : C → s.Agrees) : Ground C s.slot s := by
  refine ⟨rfl, ((sound_iff s).1 h).1, fun c => ?_⟩
  obtain ⟨slots, _, app⟩ := k c
  exact ⟨slots, app⟩

/-- Outside the labels that follow A1 there is no working slot to agree with. -/
theorem Ground.kept {C : Prop} {σ : Pair Slot} {s : State} (h : Ground C σ s) (k : s.SequencerSound)
    (w : C → s.WorkMatches) : Kept C σ s := by
  obtain ⟨slot, base, agree⟩ := h
  refine ⟨slot, (sound_iff s).2 ⟨base, k⟩, fun c => ?_⟩
  obtain ⟨slots, app⟩ := agree c
  exact ⟨slots, w c, app⟩

theorem Ground.log {C : Prop} {σ : Pair Slot} {s : State} (h : Ground C σ s) {e : Event}
    (k : ∀ p, followsAppCmd p false e = false) : Ground C σ (s.log e) := by
  obtain ⟨slot, base, agree⟩ := h
  exact ⟨slot, base, fun c => ⟨(agree c).1, (agree c).2.log k⟩⟩

theorem Ground.samplePins {C : Prop} {σ : Pair Slot} {s : State} (h : Ground C σ s) : Ground C σ s.samplePins := by
  unfold State.samplePins
  split <;> exact h

theorem Ground.present {C : Prop} {σ : Pair Slot} {s : State} (h : Ground C σ s) (p : Port) : Ground C σ (presentRun p s) :=
  h.samplePins.log fun _ => rfl

theorem Ground.wpPin {C : Prop} {σ : Pair Slot} {s : State} (h : Ground C σ s) (p : Port) : Ground C σ (wpPinRun p s) :=
  h.samplePins.log fun _ => rfl

/-- The clock of a port whose slot is absent may be programmed freely. -/
theorem Ground.setClock {C : Prop} {σ : Pair Slot} {s : State} (h : Ground C σ s) {p : Port} (hp : s.slot.get p = Slot.zero)
    {hz : Word} (k : hz ≠ 0) : Ground C σ (setClockRun p hz s) := by
  obtain ⟨slot, base, agree⟩ := h
  refine ⟨slot, base.setClock p k, fun c => ⟨fun q hq => ?_, (agree c).2.log fun _ => rfl⟩⟩
  have ne : q ≠ p := fun e => hq (by rw [e, setClockRun_slot, hp]; rfl)
  exact programmedWith_setClock_of_ne ne ((agree c).1 q hq)

/-- The width of a port whose slot is absent may be programmed freely. -/
theorem Ground.setWidth {C : Prop} {σ : Pair Slot} {s : State} (h : Ground C σ s) {p : Port} (hp : s.slot.get p = Slot.zero)
    {w : BitVec 3} (k : w = 1 ∨ w = 4) : Ground C σ (setWidthRun p w s) := by
  obtain ⟨slot, base, agree⟩ := h
  refine ⟨slot, base.setWidth p k, fun c => ⟨fun q hq => ?_, (agree c).2.log fun _ => rfl⟩⟩
  have ne : q ≠ p := fun e => hq (by rw [e, setWidthRun_slot, hp]; rfl)
  exact programmedWith_setWidth_of_ne ne ((agree c).1 q hq)

/-- A slot may be written with an absent slot, or with what its port's registers hold. -/
theorem Ground.setSlot {C : Prop} {σ : Pair Slot} {s : State} (h : Ground C σ s) {p : Port} {v : Slot} (hv : v.Sound)
    (k : C → v.kind ≠ .absent → s.ctl.ProgrammedWith p v.clockHz v.busWidth) : Ground C (σ.set p v) (s.setSlot p v) := by
  obtain ⟨slot, base, agree⟩ := h
  refine ⟨congrArg (·.set p v) slot, base.setSlot p hv, fun c => ⟨fun q => ?_, (agree c).2⟩⟩
  simp only [setSlot_slot, pair_get_set]
  split
  · rename_i hq
    rw [hq]
    exact k c
  · exact (agree c).1 q

theorem Ground.clearSlot {C : Prop} {σ : Pair Slot} {s : State} (h : Ground C σ s) (p : Port) :
    Ground C (σ.set p Slot.zero) (s.setSlot p Slot.zero) :=
  h.setSlot slotZero_sound fun _ k => absurd rfl k

/-- A return leaves the sequencer idle (10_state.md R34). -/
theorem Ground.hostReturn {C : Prop} {σ : Pair Slot} {s : State} (h : Ground C σ s) (op : HostOp) (r : Result) :
    Kept C σ (hostReturn op r s) := by
  have logged : Ground C σ (Machine.hostReturn op r s) := Ground.log (s := { s with
      seq := { s.seq with busy := false, pc := .idle }
      host := { s.host with result := some r } }) h fun _ => rfl
  refine logged.kept rfl fun _ busy => ?_
  simp at busy

/-- Acceptance at a guard: the request that the guard belongs to (43_init_sequence.md R200, 45_block_transfer.md R250). -/
theorem Ground.accept {C : Prop} {σ : Pair Slot} {s : State} (h : Ground C σ s) {r : Request} {l : Label}
    (k : (l = .iGuard ∧ r.op = .init) ∨ (l = .tGuard ∧ (r.op = .readSectors ∨ r.op = .writeSectors))) :
    Kept C σ (accept r l s) := by
  have here : Ground C σ (Machine.accept r l s) := h
  refine here.kept ?_ fun _ _ late => ?_
  · exact k.elim .inl fun k => .inr (.inl k)
  · obtain ⟨rfl, _⟩ | ⟨rfl, _⟩ := k <;> cases late

end Sys2Proof.Machine
end

section
/-! What a command does to the two invariants, whoever sends it: one lemma for the `issue` call, and one per way of keeping a part of the
response. -/

namespace Sys2Proof.Machine

/-- What a command keeps, presented or sent by the sequencer: all that the invariants speak of except the history. Of the working slot only
the identification and the address can change, of the temporaries not the path. -/
structure Commanded (s t : State) : Prop where
  slot : t.slot = s.slot
  busy : t.seq.busy = s.seq.busy
  op : t.seq.op = s.seq.op
  cur : t.seq.cur = s.seq.cur
  pc : t.seq.pc = s.seq.pc
  mmc : t.seq.tmp.mmc = s.seq.tmp.mmc
  work : t.seq.w = { s.seq.w with cid := t.seq.w.cid, rca := t.seq.w.rca }
  clean : s.seq.w.Clean → t.seq.w.Clean
  clk : t.ctl.clk = s.ctl.clk
  width : t.ctl.width = s.ctl.width
  clkSet : t.ctl.clkSet = s.ctl.clkSet
  widthSet : t.ctl.widthSet = s.ctl.widthSet
  quiet : s.ctl.Quiet s.de → t.ctl.Quiet t.de
  memory : s.MemoryWf → t.MemoryWf
  cfg : t.cfg = s.cfg

/-- A command that leaves no CMD55 outstanding. -/
def Sent (s t : State) : Prop := Commanded s t ∧ t.NoAppPending

theorem Issued.commanded {p : Port} {s t : State} (h : Issued p s t) (m : s.MemoryWf → t.MemoryWf) : Commanded s t where
  slot := h.slot
  busy := by rw [h.seq]
  op := by rw [h.seq]
  cur := by rw [h.seq]
  pc := by rw [h.seq]
  mmc := by rw [h.seq]
  work := by rw [h.seq]
  clean := fun k => by rwa [h.seq]
  clk := h.clk
  width := h.width
  clkSet := h.clkSet
  widthSet := h.widthSet
  quiet := fun ⟨_, irq, _⟩ => ⟨h.busy, h.irq irq, h.armed⟩
  memory := m
  cfg := h.cfg

/-! ### The `issue` calls -/

theorem issue_commanded (p : Port) (cd : Descriptor) (bc bs : BitVec 16) (buf : PrimBuf) (s : State) :
    Ensures (issue p cd bc bs buf s) (Commanded s) := by
  rcases issue_cases p cd bc bs buf s with ⟨r, _, h⟩ | ⟨accepted, h⟩ <;> rw [h]
  · exact ensures_refused
  · exact ensures_next ((issueRun_issued p cd bc bs buf s).commanded fun m => issueRun_wf p cd bc bs buf s m accepted)

theorem issueRun_noAppPending (p : Port) {cd : Descriptor} (bc bs : BitVec 16) (buf : PrimBuf) (s : State) (h : cd.isAppCmd = false) :
    (issueRun p cd bc bs buf s).NoAppPending := fun q => by
  rw [issueRun_appPending, h, Bool.and_false, Bool.false_and]

theorem issue_sent (p : Port) {cd : Descriptor} (bc bs : BitVec 16) (buf : PrimBuf) (s : State) (h : cd.isAppCmd = false) :
    Ensures (issue p cd bc bs buf s) (Sent s) := by
  intro t ht
  refine ⟨issue_commanded p cd bc bs buf s t ht, ?_⟩
  rcases issue_cases p cd bc bs buf s with ⟨r, _, k⟩ | ⟨_, k⟩ <;> rw [k] at ht <;> cases ht
  exact issueRun_noAppPending p bc bs buf s h

theorem issueCommand_sent {cd : Descriptor} (s : State) (h : cd.isAppCmd = false) :
    Ensures (issueCommand s.seq.cur cd s) (Sent s) :=
  issue_sent _ _ _ _ s h

theorem dir_ne_read {cd : Descriptor} (h : cd.dir = .none) : cd.dir ≠ .read := by
  rw [h]
  decide

theorem acmdRun_noStore (p : Port) (rca : BitVec 16) {cd : Descriptor} (s : State) (h : cd.dir = .none) :
    (acmdRun p rca cd s).mem = s.mem ∧ (acmdRun p rca cd s).seq = s.seq := by
  obtain ⟨mem, seq⟩ := issueRun_noStore p (cdAppCmd rca) 0 0 .null s (dir_ne_read rfl)
  unfold acmdRun afterAppCmd
  split
  · obtain ⟨mem', seq'⟩ := issueRun_noStore p cd 0 0 .null (issueRun p (cdAppCmd rca) 0 0 .null s) (dir_ne_read h)
    exact ⟨mem'.trans mem, seq'.trans seq⟩
  · exact ⟨mem, seq⟩

theorem acmd_sent (p : Port) (rca : BitVec 16) {cd : Descriptor} (s : State) (h : cd.isAppCmd = false) (k : cd.dir = .none) :
    Ensures (acmd p rca cd s) (Sent s) := by
  unfold acmd
  split
  · exact ensures_refused
  · have run := acmdRun_issued p rca cd s
    obtain ⟨mem, seq⟩ := acmdRun_noStore p rca s k
    refine ensures_next ⟨run.commanded fun m => ?_, acmdRun_appPending p rca cd s h⟩
    unfold State.MemoryWf
    rwa [mem, seq, run.cfg]

theorem appCommand_sent {cd : Descriptor} (s : State) (h : cd.isAppCmd = false) (k : cd.dir = .none) :
    Ensures (appCommand cd s) (Sent s) := by
  unfold appCommand
  split
  · exact issueCommand_sent s h
  · exact acmd_sent _ _ s h k

/-! ### What is kept of a response -/

theorem Sent.setTmp {s t : State} (h : Sent s t) {x : Temps} (k : x.mmc = t.seq.tmp.mmc) : Sent s (t.setTmp x) :=
  ⟨{ h.1 with mmc := k.trans h.1.mmc }, h.2⟩

theorem Sent.setW {s t : State} (h : Sent s t) {v : Slot} (k : v = { t.seq.w with cid := v.cid, rca := v.rca })
    (c : t.seq.w.Clean → v.Clean) : Sent s (t.setW v) := by
  refine ⟨{ h.1 with work := ?_, clean := fun m => c (h.1.clean m) }, h.2⟩
  have old := h.1.work
  rw [setW_seq]
  dsimp only
  rw [k, old]

theorem Sent.onOk {s t : State} (h : Sent s t) {f : State → State} (k : Sent s (f t)) : Ensures (onOk t f) (Sent s) := by
  unfold Machine.onOk
  refine ensures_next ?_
  split
  · exact k
  · exact h

theorem Sent.keepOcr {s t : State} (h : Sent s t) : Ensures (keepOcr t) (Sent s) := h.onOk (h.setTmp rfl)

/-- The CRC is stripped: bits 31:24 of the top word of a stored CID are 0 (42_response_parser.md R183, 10_state.md R27). -/
theorem parseCid_top (r : Words4) : (parseCid r).w3.extractLsb 31 24 = 0 := by
  apply BitVec.eq_of_toNat_eq
  simp [parseCid, Nat.shiftRight_eq_div_pow]
  omega

/-! ### The card commands as the steps of the sequencer send them -/

theorem sendSdOpCond_sent (hcs : Bool) (vdd : BitVec 16) (s : State) : Ensures (sendSdOpCond hcs vdd s) (Sent s) :=
  (acmd_sent _ _ s rfl rfl).bind fun _ h => h.keepOcr

theorem execSdSendOpCond_sent (hcs : Bool) (vdd : BitVec 16) (s : State) : Ensures (execSdSendOpCond hcs vdd s) (Sent s) :=
  (appCommand_sent s rfl rfl).bind fun _ h => h.keepOcr

theorem execSendOpCond_sent (vdd : BitVec 16) (s : State) : Ensures (execSendOpCond vdd s) (Sent s) :=
  (issueCommand_sent s rfl).bind fun _ h => h.keepOcr

theorem execAllSendCid_sent (s : State) : Ensures (execAllSendCid s) (Sent s) :=
  (issueCommand_sent s rfl).bind fun _ h => h.onOk (h.setW rfl fun c => ⟨c.1, parseCid_top _⟩)

theorem execSendRelativeAddr_sent (s : State) : Ensures (execSendRelativeAddr s) (Sent s) :=
  (issueCommand_sent s rfl).bind fun _ h => h.onOk (h.setW rfl id)

theorem execSetRelativeAddr_sent (rca : BitVec 16) (s : State) : Ensures (execSetRelativeAddr rca s) (Sent s) :=
  (issueCommand_sent s rfl).bind fun _ h => h.onOk (h.setW rfl id)

theorem execSendCsd_sent (rca : BitVec 16) (s : State) : Ensures (execSendCsd rca s) (Sent s) :=
  (issueCommand_sent s rfl).bind fun _ h => h.onOk (h.setTmp rfl)

theorem execSendStatus_sent (rca : BitVec 16) (s : State) : Ensures (execSendStatus rca s) (Sent s) := issueCommand_sent s rfl

theorem dataCommand_sent (s : State) : Ensures (dataCommand s) (Sent s) := by
  unfold dataCommand
  split <;> split <;> exact issue_sent _ _ _ _ s rfl

/-! ### What a command makes of the invariants -/

theorem Commanded.baseSound {s t : State} (c : Commanded s t) (h : s.BaseSound) : t.BaseSound := by
  obtain ⟨slots, quiet, legal, memory, hs⟩ := h
  refine ⟨by rwa [c.slot], c.quiet quiet, ?_, c.memory memory, by rwa [c.cfg]⟩
  unfold Controller.Legal
  rwa [c.clk, c.width, c.clkSet, c.widthSet]

theorem Commanded.workingSlot {s t : State} (c : Commanded s t) {l : Label} (h : WorkingSlot l s.seq.tmp.mmc s.seq.w) :
    WorkingSlot l t.seq.tmp.mmc t.seq.w := by
  obtain ⟨clean, rest⟩ := h
  refine ⟨c.clean clean, ?_⟩
  rw [c.mmc, c.work]
  exact rest

theorem Commanded.transferSound {s t : State} (c : Commanded s t) (h : s.TransferSound) : t.TransferSound := by
  unfold State.TransferSound
  rwa [c.op, c.cur, c.slot, c.cfg]

theorem Commanded.initSound {s t : State} (c : Commanded s t) (h : s.InitSound) : t.InitSound := by
  obtain ⟨op, absent, work⟩ := h
  refine ⟨by rwa [c.op], by rwa [c.slot, c.cur], ?_⟩
  rw [c.pc]
  exact c.workingSlot work

theorem Commanded.sequencerSound {s t : State} (c : Commanded s t) (h : s.SequencerSound) : t.SequencerSound := by
  unfold State.SequencerSound at h ⊢
  rw [c.busy, c.pc, c.op]
  split at h
  · exact h
  · rcases h with h | h | ⟨l, h⟩ | ⟨l, h⟩
    · exact .inl h
    · exact .inr (.inl h)
    · exact .inr (.inr (.inl ⟨l, c.initSound h⟩))
    · exact .inr (.inr (.inr ⟨l, c.transferSound h⟩))

/-- A command keeps `Sound` at whatever label it comes. -/
theorem Commanded.sound {s t : State} (c : Commanded s t) (h : s.Sound) : t.Sound := by
  rw [sound_iff] at h ⊢
  exact ⟨c.baseSound h.1, c.sequencerSound h.2⟩

theorem Commanded.programmedWith {s t : State} (c : Commanded s t) {p : Port} {hz : Word} {w : BitVec 3}
    (h : s.ctl.ProgrammedWith p hz w) : t.ctl.ProgrammedWith p hz w := by
  unfold Controller.ProgrammedWith
  rwa [c.clkSet, c.widthSet, c.clk, c.width]

theorem Ground.sent {C : Prop} {σ : Pair Slot} {s t : State} (h : Ground C σ s) (c : Sent s t) : Ground C σ t := by
  obtain ⟨slot, base, agree⟩ := h
  obtain ⟨c, app⟩ := c
  refine ⟨c.slot.trans slot, c.baseSound base, fun hC => ⟨fun d => ?_, app⟩⟩
  rw [c.slot]
  exact fun hd => c.programmedWith ((agree hC).1 d hd)

end Sys2Proof.Machine
end

section
/-! The steps of `init` keep both invariants, label by label. Between its guards and its return the sequencer works for the slot of its port,
which reads as absent, and the working slot holds what the steps before have recorded. -/

namespace Sys2Proof.Machine

/-! ### The working slot -/

/-- Label `l'` asks of the working slot what `l` asks: no attribute is recorded between them. E1 and F1 ask for something of their own. -/
def Label.sameNeeds (l l' : Label) : Bool :=
  l'.afterA1 == l.afterA1 && l'.afterB == l.afterB && l'.afterF == l.afterF && l' != .e1 && l' != .f1

theorem Label.sameNeeds_iff (l l' : Label) :
    l.sameNeeds l' = true ↔ l'.afterA1 = l.afterA1 ∧ l'.afterB = l.afterB ∧ l'.afterF = l.afterF ∧ l' ≠ .e1 ∧ l' ≠ .f1 := by
  simp [Label.sameNeeds, and_assoc]

theorem WorkingSlot.relabel {l l' : Label} {m : Bool} {w : Slot} (h : WorkingSlot l m w) (same : l.sameNeeds l' = true) :
    WorkingSlot l' m w := by
  obtain ⟨clean, port, kind, _, _, sectors⟩ := h
  obtain ⟨a, b, f, ne, nf⟩ := (Label.sameNeeds_iff l l').1 same
  exact ⟨clean, a ▸ port, b ▸ kind, fun k => absurd k ne, fun k => absurd k nf, f ▸ sectors⟩

/-- Before the end of stage B the working slot does not depend on the path. -/
theorem WorkingSlot.path_free {l : Label} {m m' : Bool} {w : Slot} (h : WorkingSlot l m w) (early : l.afterB = false) :
    WorkingSlot l m' w := by
  obtain ⟨clean, port, _, _, _, sectors⟩ := h
  refine ⟨clean, port, fun k => ?_, ?_, ?_, sectors⟩
  · rw [early] at k
    cases k
  · rintro rfl
    cases early
  · rintro rfl
    cases early

/-- The failure step asks nothing of the working slot but its unused bits. -/
theorem WorkingSlot.fail {l : Label} {m : Bool} {w : Slot} (h : WorkingSlot l m w) : WorkingSlot .fail m w :=
  ⟨h.1, nofun, nofun, nofun, nofun, nofun⟩

theorem WorkingSlot.setClock {l : Label} {m : Bool} {w : Slot} (h : WorkingSlot l m w) {hz : Word} (k : hz ≠ 0) :
    WorkingSlot l m { w with clockHz := hz } := by
  obtain ⟨clean, port, rest⟩ := h
  exact ⟨clean, fun a => ⟨k, (port a).2⟩, rest⟩

theorem WorkingSlot.setWidth {l : Label} {m : Bool} {w : Slot} (h : WorkingSlot l m w) {x : BitVec 3} (k : x = 1 ∨ x = 4) :
    WorkingSlot l m { w with busWidth := x } := by
  obtain ⟨clean, port, rest⟩ := h
  exact ⟨clean, fun a => ⟨(port a).1, k⟩, rest⟩

/-- What COMMIT copies is an initialized slot. -/
theorem WorkingSlot.initialized {m : Bool} {w : Slot} (h : WorkingSlot .commit m w) : w.Initialized := by
  obtain ⟨clean, port, kind, _, _, sectors⟩ := h
  obtain ⟨clock, width⟩ := port rfl
  obtain ⟨absent, sduc, addressing, _⟩ := kind rfl
  exact ⟨absent, sduc, sectors rfl, clock, width, addressing, clean⟩

/-! ### `init` at a label -/

/-- `init` runs, and all is as label `l` asks, wherever `seq.pc` stands: `C` and `σ` as in `Ground`. -/
def InitAt (C : Prop) (σ : Pair Slot) (l : Label) (s : State) : Prop :=
  Ground C σ s ∧ s.seq.busy = true ∧ s.seq.op.op = .init ∧ s.slot.get s.seq.cur = Slot.zero ∧
    WorkingSlot l s.seq.tmp.mmc s.seq.w ∧
    (C → l.afterA1 = true → s.ctl.ProgrammedWith s.seq.cur s.seq.w.clockHz s.seq.w.busWidth)

section
variable {C : Prop} {σ : Pair Slot} {l l' : Label} {s t : State}

theorem State.SequencerSound.initSound (h : s.SequencerSound) (busy : s.seq.busy = true) (k : s.seq.pc.inInit = true) : s.InitSound := by
  rw [State.SequencerSound, busy] at h
  rcases h with ⟨pc, _⟩ | ⟨pc, _⟩ | ⟨_, h⟩ | ⟨pc, _⟩
  · rw [pc] at k; cases k
  · rw [pc] at k; cases k
  · exact h
  · revert k pc
    cases s.seq.pc <;> simp [Label.inInit, Label.inTransfer]

theorem InitAt.of_sound (h : s.Sound) (k : C → s.Agrees) (busy : s.seq.busy = true) (pc : s.seq.pc = l) (hl : l.inInit = true) :
    InitAt C s.slot l s := by
  subst pc
  obtain ⟨op, absent, work⟩ := ((sound_iff s).1 h).2.initSound busy hl
  exact ⟨.of_sound h k, busy, op, absent, work, fun c => (k c).2.1 busy⟩

/-- At its own label `init` meets the invariants. -/
theorem InitAt.kept (h : InitAt C σ s.seq.pc s) (hl : s.seq.pc.inInit = true) : Kept C σ s := by
  obtain ⟨ground, busy, op, absent, work, programmed⟩ := h
  refine ground.kept ?_ fun c _ => programmed c
  rw [State.SequencerSound, busy]
  exact .inr (.inr (.inl ⟨hl, op, absent, work⟩))

theorem InitAt.goto (h : InitAt C σ l s) (hl : l.inInit = true) : Kept C σ (s.goto l) :=
  InitAt.kept (s := s.goto l) h hl

theorem InitAt.raise (h : InitAt C σ l s) (e : ErrorCode) : Kept C σ (s.raise e) := by
  obtain ⟨ground, busy, op, absent, work, _⟩ := h
  exact InitAt.kept (s := s.raise e) ⟨ground, busy, op, absent, work.fail, nofun⟩ rfl

theorem InitAt.relabel (h : InitAt C σ l s)
    (same : l.sameNeeds l' = true) : InitAt C σ l' s := by
  obtain ⟨ground, busy, op, absent, work, programmed⟩ := h
  refine ⟨ground, busy, op, absent, work.relabel same, ?_⟩
  rw [((Label.sameNeeds_iff l l').1 same).1]
  exact programmed

theorem InitAt.sent (h : InitAt C σ l s) (k : Sent s t) : InitAt C σ l t := by
  obtain ⟨ground, busy, op, absent, work, programmed⟩ := h
  have c := k.1
  refine ⟨ground.sent k, c.busy.trans busy, by rwa [c.op], by rwa [c.slot, c.cur], c.workingSlot work, fun hC hl => ?_⟩
  rw [c.cur, c.work]
  exact c.programmedWith (programmed hC hl)

/-- The temporaries are free but for the path, which is free before stage B. -/
theorem InitAt.setTmp (h : InitAt C σ l s) (x : Temps)
    (k : x.mmc = s.seq.tmp.mmc ∨ l.afterB = false) : InitAt C σ l (s.setTmp x) := by
  obtain ⟨ground, busy, op, absent, work, programmed⟩ := h
  refine ⟨ground, busy, op, absent, ?_, programmed⟩
  rcases k with k | early
  · rw [setTmp_seq]
    dsimp only
    rw [k]
    exact work
  · exact work.path_free early

/-- A step programs the clock and records it (10_state.md R53, 60_exceptions.md R306). -/
theorem InitAt.recordClock (h : InitAt C σ l s) {hz : Word} (k : hz ≠ 0) :
    InitAt C σ l ((setClockRun s.seq.cur hz s).setW { s.seq.w with clockHz := hz }) := by
  obtain ⟨ground, busy, op, absent, work, programmed⟩ := h
  exact ⟨ground.setClock absent k, busy, op, absent, work.setClock k, fun c hl => programmedWith_setClock (programmed c hl)⟩

/-- A step programs the width and records it (10_state.md R53, 60_exceptions.md R306). -/
theorem InitAt.recordWidth (h : InitAt C σ l s) {x : BitVec 3} (k : x = 1 ∨ x = 4) :
    InitAt C σ l ((setWidthRun s.seq.cur x s).setW { s.seq.w with busWidth := x }) := by
  obtain ⟨ground, busy, op, absent, work, programmed⟩ := h
  exact ⟨ground.setWidth absent k, busy, op, absent, work.setWidth k, fun c hl => programmedWith_setWidth (programmed c hl)⟩

/-- Entry of a polling loop of stage B. -/
theorem InitAt.enterLoop (h : InitAt C σ l s) (x : Temps) (early : l.afterB = false)
    (same : l.sameNeeds l' = true) (hl : l'.inInit = true) :
    Kept C σ (enterLoop l' x s) :=
  InitAt.goto (s := (s.setTmp x).startLoop) ((h.setTmp x (.inr early)).relabel same) hl

/-- The end of most steps: the next label, or the failure step. -/
theorem InitAt.gotoOrRaise (h : InitAt C σ l s) (l' : Label) (e : ErrorCode) (p : Prop) [Decidable p]
    (same : l.sameNeeds l' = true) (hl : l'.inInit = true) :
    Kept C σ (if p then s.goto l' else s.raise e) := by
  split
  · exact (h.relabel same).goto hl
  · exact h.raise e

/-! ### Guards, stage A and stage B -/

theorem stepIGuard_kept (h : Ground C σ s) (busy : s.seq.busy = true) (op : s.seq.op.op = .init) :
    Ensures (stepIGuard s) (Kept C σ) := by
  unfold stepIGuard
  split
  · exact ensures_next (h.hostReturn _ _)
  · rename_i d _
    split
    · exact ensures_next (h.hostReturn _ _)
    · rename_i absent
      have ⟨_, ⟨slots, _⟩, _⟩ := h
      have zero := (slots d).eq_zero (not_not.1 absent)
      have ground := Ground.present (s := { s with seq := { s.seq with cur := d, w := Slot.zero, tmp := s.seq.tmp.cleared } }) h d
      refine ensures_next ?_
      dsimp only
      split
      · refine InitAt.goto ⟨ground, ?_, ?_, ?_, ?_, nofun⟩ rfl
        · simpa using busy
        · simpa using op
        · simpa using zero
        · simpa using ⟨slotZero_clean, nofun, nofun, nofun, nofun, nofun⟩
      · exact Ground.hostReturn (s := forgetRequest _) ground _ _

theorem clkIdentHz_ne_zero : Config.clkIdentHz ≠ 0 := by decide

theorem stepA1_kept (h : InitAt C σ .a1 s) : Ensures (stepA1 s) (Kept C σ) := by
  obtain ⟨ground, busy, op, absent, work, _⟩ := h
  have programmed := (ground.setClock absent clkIdentHz_ne_zero).setWidth absent (.inl rfl)
  refine ensures_next (InitAt.goto ⟨programmed, busy, op, absent, ?_, fun _ _ => programmedWith_program _ _ _ _⟩ rfl)
  exact ⟨work.1, fun _ => ⟨clkIdentHz_ne_zero, .inl rfl⟩, nofun, nofun, nofun, nofun⟩

theorem stepA2_kept (h : InitAt C σ .a2 s) : Ensures (stepA2 s) (Kept C σ) :=
  (issueCommand_sent s rfl).bind fun _ k => ensures_next ((h.sent k).gotoOrRaise .a3 _ _ rfl rfl)

theorem stepA3_kept (h : InitAt C σ .a3 s) : Ensures (stepA3 s) (Kept C σ) := by
  refine (issueCommand_sent s rfl).bind fun t k => ensures_next ?_
  have ht := h.sent k
  split
  · split
    · exact ht.enterLoop _ rfl rfl rfl
    · exact ht.raise _
  · split <;> exact ht.enterLoop _ rfl rfl rfl
  · exact ht.raise _
  · exact ht.raise _

theorem pollOcr_kept (h : InitAt C σ l t) (hl : l = .bSd ∨ l = .bMmc) : Kept C σ (pollOcr l t) := by
  unfold pollOcr
  split
  · exact (h.relabel (by rcases hl with rfl | rfl <;> rfl)).goto rfl
  · split
    · exact InitAt.raise (s := t.dropTimer) h _
    · exact InitAt.goto (s := t.dropTimer) h (by rcases hl with rfl | rfl <;> rfl)

theorem stepBSd_kept (h : InitAt C σ .bSd s) : Ensures (stepBSd s) (Kept C σ) := by
  refine (sendSdOpCond_sent _ _ s).bind fun t k => ?_
  have ht := h.sent k
  split
  · exact ensures_next (ht.enterLoop _ (by decide) rfl rfl)
  · refine ensures_next ?_
    have polled := ht.setTmp { t.seq.tmp with legacyProbe := false } (.inl rfl)
    dsimp only
    split
    · exact pollOcr_kept polled (.inl rfl)
    · exact polled.raise _

theorem stepBMmc_kept (h : InitAt C σ .bMmc s) : Ensures (stepBMmc s) (Kept C σ) := by
  refine (execSendOpCond_sent _ s).bind fun t k => ensures_next ?_
  split
  · exact pollOcr_kept (h.sent k) (.inr rfl)
  · exact (h.sent k).raise _

/-- The kind that stage B selects is one of the path's (43_init_sequence.md R210, R211). -/
theorem kindOf_spec (mmc sd2 : Bool) (o : Ocr) :
    kindOf mmc sd2 o ≠ .absent ∧ kindOf mmc sd2 o ≠ .sduc ∧ (kindOf mmc sd2 o).isMmc = mmc := by
  unfold kindOf
  cases mmc with
  | true =>
    rw [if_pos rfl]
    split <;> exact ⟨by decide, by decide, rfl⟩
  | false =>
    rw [if_neg (by decide)]
    split <;> exact ⟨by decide, by decide, rfl⟩

theorem stepBDone_kept (h : InitAt C σ .bDone s) : Ensures (stepBDone s) (Kept C σ) := by
  unfold stepBDone
  dsimp only
  split
  · obtain ⟨ground, busy, op, absent, ⟨clean, port, _⟩, programmed⟩ := h
    obtain ⟨present, sduc, path⟩ := kindOf_spec s.seq.tmp.mmc s.seq.tmp.sd2 (parseR3 (vddMask s.cfg) s.seq.tmp.ocr)
    refine ensures_next (InitAt.goto ⟨ground, busy, op, absent, ⟨clean, port, ?_, nofun, nofun, nofun⟩, programmed⟩ rfl)
    exact fun _ => ⟨present, sduc, rfl, path⟩
  · exact ensures_next (h.raise _)

end

end Sys2Proof.Machine
end

section
/-! The steps of `init` from stage C to its return. -/

namespace Sys2Proof.Machine

section
variable {C : Prop} {σ : Pair Slot} {s t : State}

/-! ### Stages C, D, E and F -/

theorem stepC1_kept (h : InitAt C σ .c1 s) : Ensures (stepC1 s) (Kept C σ) :=
  (execAllSendCid_sent s).bind fun _ k => ensures_next ((h.sent k).gotoOrRaise .c2 _ _ rfl rfl)

theorem stepC2_kept (h : InitAt C σ .c2 s) : Ensures (stepC2 s) (Kept C σ) := by
  have sent : Ensures (if s.seq.tmp.mmc then execSetRelativeAddr s.cfg.mmcRca s else execSendRelativeAddr s) (Sent s) := by
    split
    · exact execSetRelativeAddr_sent _ s
    · exact execSendRelativeAddr_sent s
  exact sent.bind fun _ k => ensures_next ((h.sent k).gotoOrRaise .d1 _ _ rfl rfl)

theorem clkDefaultHz_ne_zero : Config.clkDefaultHz ≠ 0 := by decide

theorem wpBits_unused (slider temp perm : Bool) : (wpBits slider temp perm).extractLsb 7 3 = 0 := by
  revert slider temp perm
  decide

/-- A capacity that is stored on the SD path is not 0 (43_init_sequence.md R216). -/
theorem usableSectors_ne_zero {f : Csd} {n : Word} (h : usableSectors f false = some n) : n ≠ 0 := by
  unfold usableSectors at h
  split at h
  · cases h
  · rename_i k _
    split at h
    · cases h
    · rename_i hk
      obtain ⟨small, pos⟩ := not_or.1 hk
      cases h
      intro zero
      have toNat := congrArg BitVec.toNat zero
      rw [BitVec.toNat_ofNat, Nat.mod_eq_of_lt (not_le.1 small)] at toNat
      exact pos ⟨rfl, toNat⟩

theorem InitAt.sampleSlider (h : InitAt C σ .d1 s) : InitAt C σ .d1 (sampleSlider s) := by
  obtain ⟨ground, busy, op, absent, work, programmed⟩ := h
  unfold Machine.sampleSlider
  split
  · refine ⟨ground.wpPin .p0, ?_, ?_, ?_, ?_, ?_⟩ <;> simpa
  · exact ⟨ground, busy, op, absent, work, programmed⟩

theorem InitAt.recordCsd (h : InitAt C σ .d1 s) (f : Csd) (slider : Bool) : InitAt C σ .d1 (recordCsd f slider s) := by
  obtain ⟨ground, busy, op, absent, ⟨clean, rest⟩, programmed⟩ := h
  exact ⟨ground, busy, op, absent, ⟨⟨wpBits_unused _ _ _, clean.2⟩, rest⟩, programmed⟩

theorem recordSectors_kept (h : InitAt C σ .d1 s) {n : Option Word} (k : s.seq.tmp.mmc = false → ∀ x, n = some x → x ≠ 0) :
    Kept C σ (recordSectors n s) := by
  cases n with
  | none => exact h.raise _
  | some n =>
    obtain ⟨ground, busy, op, absent, ⟨clean, port, kind, _⟩, programmed⟩ := h
    exact InitAt.goto ⟨ground, busy, op, absent, ⟨clean, port, kind, fun _ m => k m n rfl, nofun, nofun⟩, programmed⟩ rfl

theorem sampleSlider_tmp (s : State) : (sampleSlider s).seq.tmp = s.seq.tmp := by
  unfold sampleSlider
  split <;> simp

theorem storeCsd_kept (h : InitAt C σ .d1 t) : Kept C σ (storeCsd t) := by
  refine recordSectors_kept (h.sampleSlider.recordCsd _ _) fun path x usable => ?_
  have sd : t.seq.tmp.mmc = false := (congrArg Temps.mmc (sampleSlider_tmp t)).symm.trans path
  rw [sd] at usable
  exact usableSectors_ne_zero usable

theorem stepD1_kept (h : InitAt C σ .d1 s) : Ensures (stepD1 s) (Kept C σ) := by
  have programmed := h.recordClock clkDefaultHz_ne_zero
  refine (execSendCsd_sent _ _).bind fun v k => ensures_next ?_
  split
  · exact storeCsd_kept (programmed.sent k)
  · exact (programmed.sent k).raise _

theorem stepE1_kept (h : InitAt C σ .e1 s) : Ensures (stepE1 s) (Kept C σ) := by
  refine (issueCommand_sent s rfl).bind fun t k => ensures_next ?_
  have ht := h.sent k
  split
  · split
    · exact ht.raise _
    · obtain ⟨ground, busy, op, absent, ⟨clean, port, kind, sectors, _⟩, programmed⟩ := ht
      split
      · rename_i mmc
        exact InitAt.goto ⟨ground, busy, op, absent, ⟨clean, port, kind, nofun, fun _ => mmc, nofun⟩, programmed⟩ rfl
      · rename_i sd
        exact InitAt.goto ⟨ground, busy, op, absent,
          ⟨clean, port, kind, nofun, nofun, fun _ => sectors rfl (by simpa using sd)⟩, programmed⟩ rfl
  · exact ht.raise _

theorem InitAt.forgetScratch {l : Label} (h : InitAt C σ l s) : InitAt C σ l (forgetScratch s) := by
  obtain ⟨⟨slot, ⟨slots, quiet, legal, ⟨mem, scratch⟩, hs⟩, agree⟩, rest⟩ := h
  refine ⟨⟨slot, ⟨slots, quiet, legal, ⟨mem, ?_⟩, hs⟩, agree⟩, rest⟩
  exact writeBytes_wf _ _ _ _ scratch (by simp [State.freeBytes])

theorem InitAt.recordExtCsd (h : InitAt C σ .f1 s) : InitAt C σ .f1 (recordExtCsd s) := by
  obtain ⟨ground, busy, op, absent, ⟨clean, port, kind, _, path, _⟩, programmed⟩ := h
  exact ⟨ground, busy, op, absent, ⟨clean, port, kind, nofun, path, nofun⟩, programmed⟩

theorem storeExtCsd_kept (h : InitAt C σ .f1 t) : Kept C σ (storeExtCsd t) := by
  have stored := h.recordExtCsd.forgetScratch
  unfold storeExtCsd
  dsimp only
  split
  · exact stored.raise _
  · rename_i sectors
    obtain ⟨ground, busy, op, absent, ⟨clean, port, kind, _⟩, programmed⟩ := stored
    exact InitAt.goto ⟨ground, busy, op, absent, ⟨clean, port, kind, nofun, nofun, fun _ => sectors⟩, programmed⟩ rfl

theorem stepF1_kept (h : InitAt C σ .f1 s) : Ensures (stepF1 s) (Kept C σ) := by
  refine (issue_sent _ _ _ _ s rfl).bind fun t k => ensures_next ?_
  split
  · exact storeExtCsd_kept (h.sent k)
  · exact (h.sent k).forgetScratch.raise _

/-! ### Stage G -/

theorem InitAt.clkHsHz_ne_zero {l : Label} (h : InitAt C σ l s) : s.cfg.clkHsHz ≠ 0 := by
  obtain ⟨⟨_, ⟨_, _, _, _, hs⟩, _⟩, _⟩ := h
  exact hs

theorem concludeHs_kept (h : InitAt C σ .gHs s) (confirmed : Bool) : Kept C σ (concludeHs confirmed s) := by
  have onward : ∀ u : State, InitAt C σ .gHs u → Kept C σ (u.goto (if s.seq.tmp.mmc then .gBw else .gCd)) := fun u hu => by
    split <;> exact (hu.relabel rfl).goto rfl
  unfold concludeHs
  dsimp only
  split
  · exact onward _ (h.recordClock h.clkHsHz_ne_zero)
  · split
    · exact onward s h
    · exact h.raise _

theorem hsSd_kept (h : InitAt C σ .gHs s) : Ensures (hsSd s) (Kept C σ) :=
  (issue_sent _ _ _ _ s rfl).bind fun _ k => ensures_next (concludeHs_kept (h.sent k).forgetScratch _)

theorem hsMmc_kept (h : InitAt C σ .gHs s) : Ensures (hsMmc s) (Kept C σ) := by
  refine (issueCommand_sent s rfl).bind fun t k => ?_
  split
  · exact (execSendStatus_sent _ t).bind fun _ k' => ensures_next (concludeHs_kept ((h.sent k).sent k') _)
  · exact ensures_next (concludeHs_kept (h.sent k) _)

theorem stepGHs_kept (h : InitAt C σ .gHs s) : Ensures (stepGHs s) (Kept C σ) := by
  unfold stepGHs
  split <;> split
  · exact hsMmc_kept h
  · exact ensures_next (concludeHs_kept h _)
  · exact hsSd_kept h
  · exact ensures_next (concludeHs_kept h _)

theorem stepGCd_kept (h : InitAt C σ .gCd s) : Ensures (stepGCd s) (Kept C σ) :=
  (acmd_sent _ _ s rfl rfl).bind fun _ k => ensures_next ((h.sent k).gotoOrRaise .gBw _ _ rfl rfl)

theorem stepGBw_kept (h : InitAt C σ .gBw s) : Ensures (stepGBw s) (Kept C σ) := by
  have switched : Ensures (if s.seq.tmp.mmc then execSwitch busWidthIndex 1 s else sendSdBusWidth s) (Sent s) := by
    split
    · exact issueCommand_sent s rfl
    · exact acmd_sent _ _ s rfl rfl
  refine switched.bind fun t k => ?_
  split
  · refine (execSendStatus_sent _ t).bind fun u k' => ensures_next ?_
    have hu := (h.sent k).sent k'
    dsimp only
    generalize (if u.seq.tmp.mmc then switchOk u.ctl.resp.w0 else statusOk u.ctl.resp.w0) = good
    split
    · exact ((hu.recordWidth (.inr rfl)).relabel rfl).goto rfl
    · exact hu.raise _
  · exact ensures_next ((h.sent k).raise _)

/-! ### The two steps that write the slot -/

/-- COMMIT copies the working slot, which is initialized and agrees with its port (43_init_sequence.md R221). -/
theorem stepCommit_kept (h : InitAt C σ .commit s) : Ensures (stepCommit s) (Kept C (σ.set s.seq.cur s.seq.w)) := by
  obtain ⟨ground, _, _, _, work, programmed⟩ := h
  have written := ground.setSlot (p := s.seq.cur) (.inr work.initialized) fun c _ => programmed c rfl
  exact ensures_next (Ground.hostReturn (s := forgetRequest _) written _ _)

theorem restorePort_slot (o : Port) (s : State) : (restorePort o s).slot = s.slot := by
  unfold restorePort
  split <;> rfl

/-- The failure path restores a port from an initialized slot, so its clock and width are legal (60_exceptions.md R300). -/
theorem State.BaseSound.restorePort {s : State} (h : s.BaseSound) (o : Port) : (restorePort o s).BaseSound := by
  unfold Machine.restorePort
  split
  · exact h
  · rename_i present
    obtain ⟨_, _, _, clock, width, _⟩ := (h.1 o).initialized present
    exact (h.setClock o clock).setWidth o width

theorem restorePort_programmedWith {o : Port} {s : State} (h : (s.slot.get o).kind ≠ .absent) :
    (restorePort o s).ctl.ProgrammedWith o (s.slot.get o).clockHz (s.slot.get o).busWidth := by
  unfold restorePort
  rw [if_neg h]
  exact programmedWith_program o _ _ s

theorem restorePort_noAppPending {s : State} (h : s.NoAppPending) (o : Port) : (restorePort o s).NoAppPending := by
  unfold restorePort
  split
  · exact h
  · have clocked : (setClockRun o (s.slot.get o).clockHz s).NoAppPending := h.log fun _ => rfl
    exact clocked.log fun _ => rfl

/-- `ctl_reset` leaves no port programmed; with the one slot cleared and the other port restored, slots and ports agree again
(60_exceptions.md R300). -/
theorem Ground.resetAndRestore (h : Ground C σ s) (d : Port) :
    Ground C (σ.set d Slot.zero) (restorePort d.other ((ctlResetRun s).setSlot d Slot.zero)) := by
  obtain ⟨slot, base, agree⟩ := h
  refine ⟨?_, (base.ctlReset.setSlot d slotZero_sound).restorePort _, fun c => ⟨fun q => ?_, ?_⟩⟩
  · rw [restorePort_slot]
    exact congrArg (·.set d Slot.zero) slot
  · rw [restorePort_slot]
    intro present
    have other : q = d.other := port_eq_other_of_ne fun e => present (by rw [e, setSlot_slot, pair_get_set_self]; rfl)
    rw [other] at present ⊢
    exact restorePort_programmedWith present
  · have reset : (ctlResetRun s).NoAppPending := State.NoAppPending.log (s := State.bump _) (agree c).2 fun _ => rfl
    exact restorePort_noAppPending (s := (ctlResetRun s).setSlot d Slot.zero) reset _

theorem stepFail_kept (h : Ground C σ s) : Ensures (stepFail s) (Kept C (σ.set s.seq.cur Slot.zero)) :=
  ensures_next (Ground.hostReturn (s := forgetRequest _) (h.resetAndRestore s.seq.cur) _ _)

end

end Sys2Proof.Machine
end

section
/-! The steps of a transfer keep both invariants: past its guards it writes nothing but its buffer and the sequencer. -/

namespace Sys2Proof.Machine

/-- A transfer runs past its guards, wherever `seq.pc` stands: `C` and `σ` as in `Ground`. -/
def TransferAt (C : Prop) (σ : Pair Slot) (s : State) : Prop := Ground C σ s ∧ s.seq.busy = true ∧ s.TransferSound

section
variable {C : Prop} {σ : Pair Slot} {s t : State}

theorem State.SequencerSound.transferSound (h : s.SequencerSound) (busy : s.seq.busy = true) (k : s.seq.pc.inTransfer = true) :
    s.TransferSound := by
  rw [State.SequencerSound, busy] at h
  rcases h with ⟨pc, _⟩ | ⟨pc, _⟩ | ⟨pc, _⟩ | ⟨_, h⟩
  · rw [pc] at k; cases k
  · rw [pc] at k; cases k
  · revert k pc
    cases s.seq.pc <;> simp [Label.inInit, Label.inTransfer]
  · exact h

theorem TransferAt.of_sound (h : s.Sound) (k : C → s.Agrees) (busy : s.seq.busy = true) (hl : s.seq.pc.inTransfer = true) :
    TransferAt C s.slot s :=
  ⟨.of_sound h k, busy, ((sound_iff s).1 h).2.transferSound busy hl⟩

theorem afterA1_of_inTransfer {l : Label} (h : l.inTransfer = true) : l.afterA1 = false := by
  revert h
  cases l <;> simp [Label.inTransfer, Label.afterA1]

theorem TransferAt.kept (h : TransferAt C σ s) (hl : s.seq.pc.inTransfer = true) : Kept C σ s := by
  obtain ⟨ground, busy, transfer⟩ := h
  refine ground.kept ?_ fun _ _ late => ?_
  · rw [State.SequencerSound, busy]
    exact .inr (.inr (.inr ⟨hl, transfer⟩))
  · rw [afterA1_of_inTransfer hl] at late
    cases late

theorem TransferAt.goto (h : TransferAt C σ s) {l : Label} (hl : l.inTransfer = true) : Kept C σ (s.goto l) :=
  TransferAt.kept (s := s.goto l) h hl

theorem TransferAt.sent (h : TransferAt C σ s) (k : Sent s t) : TransferAt C σ t := by
  obtain ⟨ground, busy, transfer⟩ := h
  exact ⟨ground.sent k, k.1.busy.trans busy, k.1.transferSound transfer⟩

/-- A window that the contract admits ends inside host memory (20_memory.md R62). -/
theorem range_le_of_rangeRefusal {a n : Nat} {cfg : Config} (h : rangeRefusal a n cfg = none) : a + n ≤ cfg.memBytes := by
  unfold rangeRefusal at h
  split at h
  · cases h
  · split at h
    · cases h
    · omega

theorem TransferAt.forgetBuffer (h : TransferAt C σ s) : TransferAt C σ (forgetBuffer s) := by
  obtain ⟨⟨slot, ⟨slots, quiet, legal, ⟨mem, scratch⟩, hs⟩, agree⟩, busy, op, port, present, count, range⟩ := h
  refine ⟨⟨slot, ⟨slots, quiet, legal, ⟨?_, scratch⟩, hs⟩, agree⟩, busy, op, port, present, count, range⟩
  exact writeBytes_wf _ _ _ _ mem (by simpa [State.freeBytes] using range_le_of_rangeRefusal range)

theorem TransferAt.transferReturn (h : TransferAt C σ s) (e : ErrorCode) : Kept C σ (transferReturn e s) := by
  unfold Machine.transferReturn
  dsimp only
  split
  · exact Ground.hostReturn (s := forgetRequest _) h.forgetBuffer.1 _ _
  · exact Ground.hostReturn (s := forgetRequest _) h.1 _ _

/-! ### Label by label -/

/-- The admission checks refuse an empty request (45_block_transfer.md R252). -/
theorem count_ne_zero_of_admission {r : Request} {sl : Slot} (h : admission r sl = .none) : r.count ≠ 0 := by
  intro zero
  rw [admission, if_pos zero] at h
  cases h

theorem stepTGuard_kept (h : Ground C σ s) (busy : s.seq.busy = true)
    (op : s.seq.op.op = .readSectors ∨ s.seq.op.op = .writeSectors) : Ensures (stepTGuard s) (Kept C σ) := by
  unfold stepTGuard
  dsimp only
  split
  · exact ensures_next (h.hostReturn _ _)
  · rename_i d port
    have ground : Ground C σ { s with seq := { s.seq with cur := d } } := h
    split
    · exact ensures_next (ground.hostReturn _ _)
    · rename_i present
      split
      · exact ensures_next (ground.hostReturn _ _)
      · rename_i admitted
        split
        · exact ensures_refused
        · rename_i range
          refine ensures_next (TransferAt.goto ⟨ground, busy, op, port, present, ?_, range⟩ rfl)
          exact count_ne_zero_of_admission (not_not.1 admitted)

theorem stepTPre_kept (h : TransferAt C σ s) : Ensures (stepTPre s) (Kept C σ) := by
  unfold stepTPre
  split
  · refine (issueCommand_sent s rfl).bind fun t k => ensures_next ?_
    split
    · exact (h.sent k).goto rfl
    · exact (h.sent k).transferReturn _
  · exact ensures_next (h.goto rfl)

theorem stepTData_kept (h : TransferAt C σ s) : Ensures (stepTData s) (Kept C σ) := by
  refine (dataCommand_sent s).bind fun t k => ensures_next ?_
  have ht := h.sent k
  have retried : ∀ x : Temps, TransferAt C σ (t.setTmp x) := fun _ => ht
  split
  · refine ht.goto ?_
    split <;> rfl
  · split
    · refine (retried _).goto ?_
      split <;> rfl
    · dsimp only
      split
      · exact (retried _).goto rfl
      · exact (retried _).transferReturn _

theorem stepTStop_kept (h : TransferAt C σ s) : Ensures (stepTStop s) (Kept C σ) := by
  refine (issueCommand_sent s rfl).bind fun t k => ensures_next ?_
  split
  · exact (h.sent k).goto rfl
  · exact (h.sent k).transferReturn _

theorem leaveRecovery_kept (h : TransferAt C σ s) : Kept C σ (leaveRecovery s) := by
  have polled : TransferAt C σ { s with seq := { s.seq with polling := false } } := h
  unfold leaveRecovery
  dsimp only
  split
  · exact polled.goto rfl
  · exact polled.transferReturn _

theorem stepTRecover_kept (h : TransferAt C σ s) (pc : s.seq.pc = .tRecover) : Ensures (stepTRecover s) (Kept C σ) := by
  have here : ∀ t, Sent s t → t.seq.pc.inTransfer = true := fun t k => by
    rw [k.1.pc, pc]
    rfl
  unfold stepTRecover
  split
  · refine (execSendStatus_sent _ s).bind fun t k => ensures_next ?_
    have ht := h.sent k
    split
    · exact leaveRecovery_kept ht
    · split
      · exact leaveRecovery_kept (s := t.dropTimer) ht
      · exact TransferAt.kept (s := t.dropTimer) ht (here t k)
  · refine (issueCommand_sent s rfl).bind fun t k => ensures_next ?_
    have ht : TransferAt C σ t := h.sent k
    exact TransferAt.kept (s := { t.startLoop with seq := { t.seq with polling := true } }) ht (here t k)

theorem stepTStatus_kept (h : TransferAt C σ s) : Ensures (stepTStatus s) (Kept C σ) :=
  (execSendStatus_sent _ s).bind fun _ k => ensures_next ((h.sent k).transferReturn _)

end

end Sys2Proof.Machine
end

section
/-! Every step of the machine: the sequencer's, those of the host requests, and those of a presented word of the primitive. Then the
statements of 10_state.md. -/

namespace Sys2Proof.Machine

section
variable {C : Prop} {s : State}

/-! ### The sequencer -/

/-- What the sequencer's next step makes of the slot table (10_state.md R32, R33). -/
def sequencerSlots (s : State) : Pair Slot :=
  if s.seq.busy then
    match s.seq.pc with
    | .commit => s.slot.set s.seq.cur s.seq.w
    | .fail => s.slot.set s.seq.cur Slot.zero
    | _ => s.slot
  else s.slot

theorem sequencerSlots_commit (busy : s.seq.busy = true) (pc : s.seq.pc = .commit) :
    sequencerSlots s = s.slot.set s.seq.cur s.seq.w := by
  rw [sequencerSlots, if_pos busy, pc]

theorem sequencerSlots_fail (busy : s.seq.busy = true) (pc : s.seq.pc = .fail) :
    sequencerSlots s = s.slot.set s.seq.cur Slot.zero := by
  rw [sequencerSlots, if_pos busy, pc]

theorem sequencerSlots_other (commit : s.seq.pc ≠ .commit) (fail : s.seq.pc ≠ .fail) : sequencerSlots s = s.slot := by
  unfold sequencerSlots
  split
  · split
    · exact absurd ‹_› commit
    · exact absurd ‹_› fail
    · rfl
  · rfl

/-- `init` past its guards. -/
theorem stepAt_init_kept (h : s.Sound) (k : C → s.Agrees) (busy : s.seq.busy = true) (hl : s.seq.pc.inInit = true) :
    Ensures (stepAt s.seq.pc s) (Kept C (sequencerSlots s)) := by
  have here : InitAt C s.slot s.seq.pc s := .of_sound h k busy rfl hl
  have unwritten := sequencerSlots_other (s := s)
  cases pc : s.seq.pc <;> rw [pc] at here hl unwritten
  case commit => rw [sequencerSlots_commit busy pc]; exact stepCommit_kept here
  case fail => rw [sequencerSlots_fail busy pc]; exact stepFail_kept here.1
  all_goals rw [unwritten nofun nofun]
  case a1 => exact stepA1_kept here
  case a2 => exact stepA2_kept here
  case a3 => exact stepA3_kept here
  case bSd => exact stepBSd_kept here
  case bMmc => exact stepBMmc_kept here
  case bDone => exact stepBDone_kept here
  case c1 => exact stepC1_kept here
  case c2 => exact stepC2_kept here
  case d1 => exact stepD1_kept here
  case e1 => exact stepE1_kept here
  case f1 => exact stepF1_kept here
  case gHs => exact stepGHs_kept here
  case gCd => exact stepGCd_kept here
  case gBw => exact stepGBw_kept here
  all_goals cases hl

/-- A transfer past its guards. -/
theorem stepAt_transfer_kept (h : s.Sound) (k : C → s.Agrees) (busy : s.seq.busy = true) (hl : s.seq.pc.inTransfer = true) :
    Ensures (stepAt s.seq.pc s) (Kept C s.slot) := by
  have here : TransferAt C s.slot s := .of_sound h k busy hl
  cases pc : s.seq.pc <;> rw [pc] at hl
  case tPre => exact stepTPre_kept here
  case tData => exact stepTData_kept here
  case tStop => exact stepTStop_kept here
  case tRecover => exact stepTRecover_kept here pc
  case tStatus => exact stepTStatus_kept here
  all_goals cases hl

theorem runSequencer_kept (h : s.Sound) (k : C → s.Agrees) : Ensures (runSequencer s) (Kept C (sequencerSlots s)) := by
  have ground : Ground C s.slot s := .of_sound h k
  obtain ⟨_, sequencer⟩ := (sound_iff s).1 h
  unfold runSequencer
  split
  · rename_i busy
    split
    · exact ensures_refused
    · rw [State.SequencerSound, busy] at sequencer
      rcases sequencer with ⟨pc, op⟩ | ⟨pc, op⟩ | ⟨hl, _⟩ | ⟨hl, _⟩
      · rw [sequencerSlots_other (by rw [pc]; nofun) (by rw [pc]; nofun), pc]
        exact stepIGuard_kept ground busy op
      · rw [sequencerSlots_other (by rw [pc]; nofun) (by rw [pc]; nofun), pc]
        exact stepTGuard_kept ground busy op
      · exact stepAt_init_kept h k busy hl
      · rw [sequencerSlots_other]
        · exact stepAt_transfer_kept h k busy hl
        · intro pc; rw [pc] at hl; cases hl
        · intro pc; rw [pc] at hl; cases hl
  · rename_i idle
    rw [sequencerSlots, if_neg idle]
    exact ensures_next ⟨rfl, h, k⟩

/-! ### Host requests -/

theorem runGetDevInfo_kept {σ : Pair Slot} (h : Ground C σ s) : Kept C σ (runGetDevInfo s) := by
  unfold runGetDevInfo
  split
  · exact h.hostReturn _ _
  · exact Ground.hostReturn (s := { s with host := { s.host with devInfo := _ } }) h _ _

theorem runGetCid_kept {σ : Pair Slot} (h : Ground C σ s) : Kept C σ (runGetCid s) := by
  unfold runGetCid
  split
  · exact h.hostReturn _ _
  · exact Ground.hostReturn (s := { s with host := { s.host with cid := _ } }) h _ _

theorem runGetWriteProtBits_kept {σ : Pair Slot} (h : Ground C σ s) : Kept C σ (runGetWriteProtBits s) := by
  unfold runGetWriteProtBits
  dsimp only
  split
  · exact h.hostReturn _ _
  · split
    · exact h.hostReturn _ _
    · split
      · exact (h.wpPin .p0).hostReturn _ _
      · exact h.hostReturn _ _

theorem runGetSectors_kept {σ : Pair Slot} (h : Ground C σ s) : Kept C σ (runGetSectors s) := by
  unfold runGetSectors
  split <;> exact h.hostReturn _ _

/-- What `deinit` makes of the slot table (10_state.md R32). -/
def deinitSlots (devNum : BitVec 8) (x : Pair Slot) : Pair Slot :=
  match portOf devNum with
  | none => x
  | some d => x.set d Slot.zero

theorem runDeinit_kept {σ : Pair Slot} (h : Ground C σ s) : Kept C (deinitSlots s.seq.op.devNum σ) (runDeinit s) := by
  unfold runDeinit deinitSlots
  cases portOf s.seq.op.devNum with
  | none => exact h.hostReturn _ _
  | some d => exact (h.clearSlot d).hostReturn _ _

/-! ### The primitive, presented from outside -/

/-- A command that the sequencer did not ask for keeps `Sound`, and writes no slot. -/
theorem Commanded.kept {t : State} (c : Commanded s t) (hC : ¬C) (h : s.Sound) : Kept C s.slot t := by
  rw [← c.slot]
  exact .of_sound hC (c.sound h)

theorem execSetClock_kept (hC : ¬C) (h : s.Sound) (p : Port) (hz : Word) : Ensures (execSetClock p hz s) (Kept C s.slot) := by
  obtain ⟨base, sequencer⟩ := (sound_iff s).1 h
  unfold execSetClock
  split
  · exact ensures_refused
  · rename_i nonzero
    refine whenOpen_ensures (ensures_next (Kept.of_sound (s := { setClockRun p hz s with prim := .none }) hC ?_))
    exact (sound_iff _).2 ⟨base.setClock p nonzero, sequencer⟩

theorem execSetBusWidth_kept (hC : ¬C) (h : s.Sound) (p : Port) (w : Word) : Ensures (execSetBusWidth p w s) (Kept C s.slot) := by
  obtain ⟨base, sequencer⟩ := (sound_iff s).1 h
  unfold execSetBusWidth
  split
  · rename_i legal
    have width : w.setWidth 3 = 1 ∨ w.setWidth 3 = 4 := legal.imp (fun e => by rw [e]; rfl) fun e => by rw [e]; rfl
    refine whenOpen_ensures (ensures_next (Kept.of_sound (s := { setWidthRun p (w.setWidth 3) s with prim := .none }) hC ?_))
    exact (sound_iff _).2 ⟨base.setWidth p width, sequencer⟩
  · exact ensures_refused

theorem samplePins_sound (h : s.Sound) : s.samplePins.Sound := by
  unfold State.samplePins
  split <;> exact h

theorem Kept.of_samplePins {t : State} (hC : ¬C) (slot : t.slot = s.samplePins.slot) (h : t.Sound) : Kept C s.slot t :=
  ⟨slot.trans (samplePins_slot s), h, fun c => absurd c hC⟩

theorem execCardPresent_kept (hC : ¬C) (h : s.Sound) (p : Port) : Ensures (execCardPresent p s) (Kept C s.slot) := by
  refine whenFree_ensures ?_
  split
  · exact ensures_next (.of_samplePins hC rfl (samplePins_sound h))
  · exact ensures_refused

theorem execWriteProtectPin_kept (hC : ¬C) (h : s.Sound) (p : Port) : Ensures (execWriteProtectPin p s) (Kept C s.slot) :=
  whenOpen_ensures (ensures_next (.of_samplePins hC rfl (samplePins_sound h)))

theorem getWord_kept (hC : ¬C) (h : s.Sound) (rk : RespKind) : Ensures (getWord rk s) (Kept C s.slot) := by
  refine whenFree_ensures ?_
  split <;> exact ensures_next ⟨rfl, h, fun c => absurd c hC⟩

theorem execCmdResponseR2_kept (hC : ¬C) (h : s.Sound) : Ensures (execCmdResponseR2 s) (Kept C s.slot) := by
  refine whenFree_ensures ?_
  split <;> exact ensures_next ⟨rfl, h, fun c => absurd c hC⟩

theorem execCtlReset_kept (hC : ¬C) (h : s.Sound) : Ensures (execCtlReset s) (Kept C s.slot) := by
  obtain ⟨base, sequencer⟩ := (sound_iff s).1 h
  exact ensures_next (Kept.of_sound (s := { ctlResetRun s with prim := .none }) hC ((sound_iff _).2 ⟨base.ctlReset, sequencer⟩))

theorem execIssue_kept (hC : ¬C) (h : s.Sound) (p : Port) (cd : Descriptor) (bc bs : BitVec 16) (buf : PrimBuf) :
    Ensures (execIssue p cd bc bs buf s) (Kept C s.slot) :=
  (issue_commanded p cd bc bs buf s).bind fun _ c => ensures_next (c.kept hC h)

/-! ### Every operation -/

/-- The host requests, the operations of format HR (30_encoding.md R87). -/
def isHostRequest : Instr → Bool
  | .init _ _ _ | .deinit _ _ _ | .getDevInfo _ _ _ | .getCid _ _ _ | .getWriteProtBits _ _ _ | .getSectors _ _ _
  | .readSectors _ _ _ _ | .writeSectors _ _ _ _ => true
  | _ => false

theorem decodeHost_isHostRequest {w : BitVec 64} {buf : HostBuf} {i : Instr} (h : decodeHost w buf = .ok i) :
    isHostRequest i = true := by
  unfold decodeHost at h
  dsimp only at h
  split at h <;> cases h <;> rfl

/-- What an operation makes of the slot table: only `deinit` writes it (10_state.md R32). -/
def operationSlots (i : Instr) (x : Pair Slot) : Pair Slot :=
  match i with
  | .deinit devNum _ _ => deinitSlots devNum x
  | _ => x

/-- Every operation keeps `Sound`; host requests keep the agreement of slots and ports too. -/
theorem exec_kept (i : Instr) (h : s.Sound) (k : C → s.Agrees ∧ isHostRequest i = true) :
    Ensures (exec i s) (Kept C (operationSlots i s.slot)) := by
  have ground : Ground C s.slot s := .of_sound h fun c => (k c).1
  have outside : isHostRequest i = false → ¬C := fun n c => by
    rw [(k c).2] at n
    cases n
  have command : ∀ {r : Step}, ¬C → Ensures r (Sent s) → Ensures r (Kept C s.slot) := fun hC hr =>
    hr.mono fun _ c => c.1.kept hC h
  cases i with
  | init | readSectors | writeSectors =>
    exact whenIdle_ensures (ensures_next (ground.accept (by simp)))
  | deinit => exact whenIdle_ensures (ensures_next (runDeinit_kept (s := accept _ _ s) ground))
  | getDevInfo => exact whenIdle_ensures (ensures_next (runGetDevInfo_kept (s := accept _ _ s) ground))
  | getCid => exact whenIdle_ensures (ensures_next (runGetCid_kept (s := accept _ _ s) ground))
  | getWriteProtBits => exact whenIdle_ensures (ensures_next (runGetWriteProtBits_kept (s := accept _ _ s) ground))
  | getSectors => exact whenIdle_ensures (ensures_next (runGetSectors_kept (s := accept _ _ s) ground))
  | issue => exact execIssue_kept (outside rfl) h _ _ _ _ _
  | setClock => exact execSetClock_kept (outside rfl) h _ _
  | setBusWidth => exact execSetBusWidth_kept (outside rfl) h _ _
  | cardPresent => exact execCardPresent_kept (outside rfl) h _
  | writeProtectPin => exact execWriteProtectPin_kept (outside rfl) h _
  | cmdResponseR1 | cmdResponseR1b | cmdResponseR3 | cmdResponseR6 | cmdResponseR7 => exact getWord_kept (outside rfl) h _
  | cmdResponseR2 => exact execCmdResponseR2_kept (outside rfl) h
  | ctlReset => exact execCtlReset_kept (outside rfl) h
  | appCmd => exact (issue_commanded _ _ _ _ _ s).mono fun _ c => c.kept (outside rfl) h
  | goIdleState | sendIfCond | selectCard | switch | sendStatus | setBlockCount | stopTransmission =>
    exact command (outside rfl) (issueCommand_sent s rfl)
  | sdSendOpCond => exact command (outside rfl) (execSdSendOpCond_sent _ _ s)
  | sendOpCond => exact command (outside rfl) (execSendOpCond_sent _ s)
  | allSendCid => exact command (outside rfl) (execAllSendCid_sent s)
  | sendRelativeAddr => exact command (outside rfl) (execSendRelativeAddr_sent s)
  | setRelativeAddr => exact command (outside rfl) (execSetRelativeAddr_sent _ s)
  | sendCsd => exact command (outside rfl) (execSendCsd_sent _ s)
  | setClrCardDetect | acmdSetBusWidth => exact command (outside rfl) (appCommand_sent s rfl rfl)
  | sendExtCsd | switchFunc | readSingleBlock | readMultipleBlock | writeBlock | writeMultipleBlock =>
    exact command (outside rfl) (issue_sent _ _ _ _ s rfl)

end

/-! ### The statements -/

/-- Where a step comes from: the sequencer, or a presented word that selects an operation. -/
theorem step_cases {s t : State} (h : step s = .next t) :
    (s.fetch = none ∧ runSequencer s = .next t) ∨
    (∃ w i, s.fetch = some w ∧ decode (s.appPending s.seq.cur) w = .ok i ∧ exec i { s with fetch := none } = .next t) := by
  cases hf : s.fetch with
  | none =>
    rw [step_of_fetch_none hf] at h
    exact .inl ⟨rfl, h⟩
  | some w =>
    cases hd : decode (s.appPending s.seq.cur) w with
    | error e =>
      rw [step_of_decode_error hf hd] at h
      cases h
    | ok i =>
      rw [step_of_decode_ok hf hd] at h
      exact .inr ⟨w, i, rfl, hd, h⟩

/-- Settles O52: the sequencer's steps and every operation keep `Sound`. -/
theorem stepKeepsSound : Obligations.StepKeepsSound := by
  intro s t h hstep
  rcases step_cases hstep with ⟨_, hrun⟩ | ⟨_, i, _, _, hexec⟩
  · exact (runSequencer_kept (C := False) h False.elim t hrun).2.1
  · exact (exec_kept (C := False) (s := { s with fetch := none }) i h False.elim t hexec).2.1

/-- A word that the host presents selects a host request. -/
theorem isHostRequest_of_hostOnly {s : State} {app : Bool} {w : OpWord} {i : Instr} (h : s.HostOnly) (hf : s.fetch = some w)
    (hd : decode app w = .ok i) : isHostRequest i = true := by
  rw [State.HostOnly, hf] at h
  cases w with
  | hr w buf => exact decodeHost_isHostRequest hd
  | po | cd => exact h.elim

/-- Settles O53: the sequencer's steps and the host requests keep `Sound` and the agreement of slots and ports. -/
theorem stepKeepsCoherent : Obligations.StepKeepsCoherent := by
  intro s t h host hstep
  obtain ⟨sound, agrees⟩ := (coherent_iff s).1 h
  refine (coherent_iff t).2 ?_
  rcases step_cases hstep with ⟨_, hrun⟩ | ⟨w, i, hf, hd, hexec⟩
  · obtain ⟨_, sound', agrees'⟩ := runSequencer_kept (C := True) sound (fun _ => agrees) t hrun
    exact ⟨sound', agrees' trivial⟩
  · obtain ⟨_, sound', agrees'⟩ := exec_kept (C := True) (s := { s with fetch := none }) i sound
      (fun _ => ⟨agrees, isHostRequest_of_hostOnly host hf hd⟩) t hexec
    exact ⟨sound', agrees' trivial⟩

/-- A port's slot differs after a write of one slot only if it is the slot written. -/
theorem eq_of_get_set_ne {x : Pair Slot} {p d : Port} {v : Slot} (h : (x.set p v).get d ≠ x.get d) :
    p = d ∧ (x.set p v).get d = v := by
  by_cases hd : d = p
  · rw [hd]
    exact ⟨rfl, pair_get_set_self _ _ _⟩
  · exact absurd (pair_get_set_of_ne _ _ hd) h

theorem sequencerSlots_changed {s : State} {d : Port} (h : (sequencerSlots s).get d ≠ s.slot.get d) :
    s.seq.busy = true ∧ s.seq.cur = d ∧
      ((s.seq.pc = .commit ∧ (sequencerSlots s).get d = s.seq.w) ∨ (s.seq.pc = .fail ∧ (sequencerSlots s).get d = Slot.zero)) := by
  have busy : s.seq.busy = true := by
    by_contra idle
    rw [sequencerSlots, if_neg idle] at h
    exact h rfl
  by_cases commit : s.seq.pc = .commit
  · rw [sequencerSlots_commit busy commit] at h ⊢
    obtain ⟨port, written⟩ := eq_of_get_set_ne h
    exact ⟨busy, port, .inl ⟨commit, written⟩⟩
  · by_cases fail : s.seq.pc = .fail
    · rw [sequencerSlots_fail busy fail] at h ⊢
      obtain ⟨port, written⟩ := eq_of_get_set_ne h
      exact ⟨busy, port, .inr ⟨fail, written⟩⟩
    · rw [sequencerSlots_other commit fail] at h
      exact absurd rfl h

theorem devNumOf_of_portOf {devNum : BitVec 8} {d : Port} (h : portOf devNum = some d) : devNum = devNumOf d := by
  apply BitVec.eq_of_toNat_eq
  unfold portOf at h
  split at h <;> cases h <;> assumption

theorem deinitSlots_changed {x : Pair Slot} {devNum : BitVec 8} {d : Port} (h : (deinitSlots devNum x).get d ≠ x.get d) :
    devNum = devNumOf d ∧ (deinitSlots devNum x).get d = Slot.zero := by
  unfold deinitSlots at h ⊢
  split at h
  · exact absurd rfl h
  · rename_i p port
    obtain ⟨rfl, written⟩ := eq_of_get_set_ne h
    exact ⟨devNumOf_of_portOf port, written⟩

theorem operationSlots_changed {x : Pair Slot} {i : Instr} {d : Port} (h : (operationSlots i x).get d ≠ x.get d) :
    ∃ c n, i = .deinit (devNumOf d) c n ∧ (operationSlots i x).get d = Slot.zero := by
  unfold operationSlots at h ⊢
  split at h
  · rename_i devNum c n
    obtain ⟨rfl, written⟩ := deinitSlots_changed h
    exact ⟨c, n, rfl, written⟩
  · exact absurd rfl h

/-- Settles O55: the slot table after a step is `sequencerSlots` or `operationSlots` of the one before. -/
theorem slotsChangeOnlyInInitAndDeinit : Obligations.SlotsChangeOnlyInInitAndDeinit := by
  intro s t d h hstep changed
  rcases step_cases hstep with ⟨hf, hrun⟩ | ⟨w, i, hf, hd, hexec⟩
  · obtain ⟨slot, _⟩ := runSequencer_kept (C := False) h False.elim t hrun
    rw [slot] at changed ⊢
    obtain ⟨busy, port, ⟨pc, written⟩ | ⟨pc, written⟩⟩ := sequencerSlots_changed changed
    · exact .inl ⟨hf, busy, port, pc, written⟩
    · exact .inr (.inl ⟨hf, busy, port, pc, written⟩)
  · obtain ⟨slot, _⟩ := exec_kept (C := False) (s := { s with fetch := none }) i h False.elim t hexec
    rw [slot] at changed ⊢
    obtain ⟨c, n, rfl, written⟩ := operationSlots_changed changed
    exact .inr (.inr ⟨w, c, n, hf, hd, idle_of_whenIdle hexec, written⟩)

/-- Settles O6: the statement is the three branches of the sequencer's step. -/
theorem stepRunsSequencer : Obligations.StepRunsSequencer := by
  intro s hfetch
  rw [step_of_fetch_none hfetch, runSequencer]
  refine ⟨fun idle => ?_, fun busy waiting => ?_, fun busy free => ?_⟩
  · rw [idle]
    rfl
  · rw [busy, waiting]
    rfl
  · rw [busy, free]
    rfl

/-- Settles O54: after reset both slots are absent, the sequencer is idle, the history and the memory are empty. -/
theorem resetIsCoherent : Obligations.ResetIsCoherent := by
  have absent : ∀ d, State.reset.slot.get d = Slot.zero := fun d => by cases d <;> rfl
  have unprogrammed : ∀ d, State.reset.ctl.clkSet.get d = false ∧ State.reset.ctl.widthSet.get d = false := fun d => by
    cases d <;> exact ⟨rfl, rfl⟩
  have base : State.reset.BaseSound := by
    refine ⟨fun d => .inl (absent d), ⟨rfl, rfl, rfl⟩, fun d => ⟨fun k => ?_, fun k => ?_⟩, reset_memory_wf, by decide⟩
    · rw [(unprogrammed d).1] at k
      cases k
    · rw [(unprogrammed d).2] at k
      cases k
  refine (coherent_iff _).2 ⟨(sound_iff _).2 ⟨base, rfl⟩, fun d present => ?_, nofun, fun _ => rfl⟩
  rw [absent d] at present
  exact absurd rfl present

end Sys2Proof.Machine
end

section
/-! The decoder of the three formats, field by field: what each field of an encoded word reads, and for which words the decoder answers what
(30_encoding.md R85 to R92, R105 to R107). -/

namespace Sys2Proof

/-! ### HR words (30_encoding.md R86, R87) -/

/-- The operation of a host request: the row of R87. -/
def HostOp.request (op : HostOp) (devNum : BitVec 8) (count : BitVec 16) (sect : Word) (buf : HostBuf) : Instr :=
  match op with
  | .init => .init devNum count sect
  | .deinit => .deinit devNum count sect
  | .getDevInfo => .getDevInfo devNum count sect
  | .getCid => .getCid devNum count sect
  | .getWriteProtBits => .getWriteProtBits devNum count sect
  | .getSectors => .getSectors devNum count sect
  | .readSectors => .readSectors devNum count sect buf
  | .writeSectors => .writeSectors devNum count sect buf

/-- The word of a request holds its operands; only the buffer stands beside it, and only where the request has one (R86). -/
theorem encode_request (op : HostOp) (d : BitVec 8) (c : BitVec 16) (s : Word) (buf : HostBuf) :
    ∃ b, encode (op.request d c s buf) = .hr (hostWord op d c s) b := by
  cases op <;> exact ⟨_, rfl⟩

theorem hostWord_operands (op : HostOp) (d : BitVec 8) (c : BitVec 16) (s : Word) :
    (hostWord op d c s).extractLsb 55 48 = d ∧ (hostWord op d c s).extractLsb 47 32 = c ∧ (hostWord op d c s).extractLsb 31 0 = s := by
  unfold hostWord
  refine ⟨?_, ?_, ?_⟩ <;> grind

/-- A 64-bit word is its four fields, the operation's number first (R86). -/
theorem hostWord_of_op {w : BitVec 64} {op : HostOp} (h : w.extractLsb 63 56 = op.code) :
    hostWord op (w.extractLsb 55 48) (w.extractLsb 47 32) (w.extractLsb 31 0) = w := by
  unfold hostWord
  grind

theorem decodeHost_of_op {w : BitVec 64} {op : HostOp} (h : w.extractLsb 63 56 = op.code) (buf : HostBuf) :
    decodeHost w buf = .ok (op.request (w.extractLsb 55 48) (w.extractLsb 47 32) (w.extractLsb 31 0) buf) := by
  unfold decodeHost
  rw [h]
  cases op <;> rfl

/-- R107: no request has a number of 8 or more. -/
theorem decodeHost_of_large {w : BitVec 64} (h : 8 ≤ (w.extractLsb 63 56).toNat) (buf : HostBuf) :
    decodeHost w buf = .error (.noHostOp (w.extractLsb 63 56).toNat) := by
  unfold decodeHost
  split
  case h_9 => rfl
  all_goals omega

/-- R87 numbers the requests from 0 to 7. -/
theorem exists_hostOp_of_lt {c : BitVec 8} (h : c.toNat < 8) : ∃ op : HostOp, c = op.code := by
  interval_cases k : c.toNat
  · exact ⟨.init, BitVec.eq_of_toNat_eq k⟩
  · exact ⟨.deinit, BitVec.eq_of_toNat_eq k⟩
  · exact ⟨.getDevInfo, BitVec.eq_of_toNat_eq k⟩
  · exact ⟨.getCid, BitVec.eq_of_toNat_eq k⟩
  · exact ⟨.getWriteProtBits, BitVec.eq_of_toNat_eq k⟩
  · exact ⟨.getSectors, BitVec.eq_of_toNat_eq k⟩
  · exact ⟨.readSectors, BitVec.eq_of_toNat_eq k⟩
  · exact ⟨.writeSectors, BitVec.eq_of_toNat_eq k⟩

/-- The word of a request decodes to it, with the buffer that stands beside the word. -/
theorem decodeHost_hostWord (op : HostOp) (d : BitVec 8) (c : BitVec 16) (s : Word) (buf : HostBuf) :
    decodeHost (hostWord op d c s) buf = .ok (op.request d c s buf) := by
  obtain ⟨dev, count, sect⟩ := hostWord_operands op d c s
  rw [decodeHost_of_op (hostWord_op op d c s), dev, count, sect]

/-- An HR word that decodes is the encoding of its request. -/
theorem encode_of_decodeHost {w : BitVec 64} {buf : HostBuf} {i : Instr} (h : decodeHost w buf = .ok i) :
    ∃ b, encode i = .hr w b := by
  rcases Nat.lt_or_ge (w.extractLsb 63 56).toNat 8 with small | large
  · obtain ⟨op, hop⟩ := exists_hostOp_of_lt small
    rw [decodeHost_of_op hop] at h
    cases h
    have request := encode_request op (w.extractLsb 55 48) (w.extractLsb 47 32) (w.extractLsb 31 0) buf
    rwa [hostWord_of_op hop] at request
  · rw [decodeHost_of_large large] at h
    cases h

/-! ### CD words (30_encoding.md R90 to R92) -/

theorem RespKind.ofCode_eq_some_iff {c : BitVec 3} {rk : RespKind} : RespKind.ofCode c = some rk ↔ c = rk.code := by
  cases rk <;> revert c <;> decide

theorem RespKind.ofCode_eq_none_iff {c : BitVec 3} : RespKind.ofCode c = Option.none ↔ c = 7 := by
  revert c
  decide

theorem Dir.ofCode_eq_some_iff {c : BitVec 2} {dir : Dir} : Dir.ofCode c = some dir ↔ c = dir.code := by
  cases dir <;> revert c <;> decide

theorem Dir.ofCode_eq_none_iff {c : BitVec 2} : Dir.ofCode c = Option.none ↔ c = 3 := by
  revert c
  decide

theorem descriptorWord_reserved (d : Descriptor) : d.word.extractLsb 47 45 = 0 ∧ d.word.extractLsb 39 38 = 0 := by
  unfold Descriptor.word
  refine ⟨?_, ?_⟩ <;> grind

theorem descriptorWord_fields (d : Descriptor) :
    d.word.extractLsb 44 42 = d.rk.code ∧ d.word.extractLsb 41 40 = d.dir.code ∧ d.word.extractLsb 37 32 = d.index ∧
      d.word.extractLsb 31 0 = d.arg := by
  unfold Descriptor.word
  refine ⟨?_, ?_, ?_, ?_⟩ <;> grind

/-- A 48-bit word with its reserved bits 0 is the four fields of a descriptor (R90). -/
theorem descriptorWord_of_fields {w : BitVec 48} {rk : RespKind} {dir : Dir} (high : w.extractLsb 47 45 = 0)
    (low : w.extractLsb 39 38 = 0) (hrk : w.extractLsb 44 42 = rk.code) (hdir : w.extractLsb 41 40 = dir.code) :
    Descriptor.word ⟨rk, dir, w.extractLsb 37 32, w.extractLsb 31 0⟩ = w := by
  unfold Descriptor.word
  grind

@[simp] theorem Descriptor.ofWord_word (d : Descriptor) : Descriptor.ofWord d.word = some d := by
  obtain ⟨rk, dir, index, arg⟩ := descriptorWord_fields d
  rw [Descriptor.ofWord, if_pos (descriptorWord_reserved d), rk, dir, index, arg, RespKind.ofCode_eq_some_iff.2 rfl,
    Dir.ofCode_eq_some_iff.2 rfl]

/-- A word that holds a descriptor is the descriptor's word: no bit of it is free. -/
theorem Descriptor.ofWord_eq_some_iff {w : BitVec 48} {d : Descriptor} : Descriptor.ofWord w = some d ↔ w = d.word := by
  refine ⟨fun h => ?_, fun h => h ▸ Descriptor.ofWord_word d⟩
  unfold Descriptor.ofWord at h
  split at h
  · rename_i reserved
    split at h
    · rename_i rk dir hrk hdir
      cases h
      exact (descriptorWord_of_fields reserved.1 reserved.2 (RespKind.ofCode_eq_some_iff.1 hrk) (Dir.ofCode_eq_some_iff.1 hdir)).symm
    · cases h
  · cases h

/-- R107: what makes a 48-bit word no descriptor. -/
theorem Descriptor.ofWord_eq_none_iff {w : BitVec 48} : Descriptor.ofWord w = Option.none ↔
    w.extractLsb 44 42 = 7 ∨ w.extractLsb 41 40 = 3 ∨ w.extractLsb 47 45 ≠ 0 ∨ w.extractLsb 39 38 ≠ 0 := by
  by_cases reserved : w.extractLsb 47 45 = 0 ∧ w.extractLsb 39 38 = 0
  · rw [Descriptor.ofWord, if_pos reserved, ← RespKind.ofCode_eq_none_iff, ← Dir.ofCode_eq_none_iff]
    cases RespKind.ofCode (w.extractLsb 44 42) <;> cases Dir.ofCode (w.extractLsb 41 40) <;> simp [reserved.1, reserved.2]
  · rw [Descriptor.ofWord, if_neg reserved]
    exact iff_of_true rfl (.inr (.inr (not_and_or.1 reserved)))

theorem decodeCommand_of_notDescriptor {w : BitVec 48} (app : Bool) (h : Descriptor.ofWord w = Option.none) :
    decodeCommand app w = .error .notDescriptor := by
  simp only [decodeCommand, h]

theorem decodeCommand_word_of_some {app : Bool} {d : Descriptor} {i : Instr} (h : commandOf app d = some i) :
    decodeCommand app d.word = .ok i := by
  simp only [decodeCommand, Descriptor.ofWord_word, h]

theorem decodeCommand_word_of_none {app : Bool} {d : Descriptor} (h : commandOf app d = Option.none) :
    decodeCommand app d.word = .error .unlistedCommand := by
  simp only [decodeCommand, Descriptor.ofWord_word, h]

/-- A CD word that decodes is the word of a descriptor of a command. -/
theorem exists_descriptor_of_decodeCommand {app : Bool} {w : BitVec 48} {i : Instr} (h : decodeCommand app w = .ok i) :
    ∃ d, w = d.word ∧ commandOf app d = some i := by
  cases hw : Descriptor.ofWord w with
  | none =>
    rw [decodeCommand_of_notDescriptor app hw] at h
    cases h
  | some d =>
    obtain rfl := Descriptor.ofWord_eq_some_iff.1 hw
    refine ⟨d, rfl, ?_⟩
    cases hd : commandOf app d with
    | none =>
      rw [decodeCommand_word_of_none hd] at h
      cases h
    | some j =>
      rw [decodeCommand_word_of_some hd] at h
      cases h
      rfl

/-! ### Arguments of the card commands (30_encoding.md R95 to R101) -/

theorem fixedArg_eq_some_iff {arg want : Word} {i j : Instr} : fixedArg arg want i = some j ↔ arg = want ∧ i = j := by
  simp [fixedArg]

theorem fixedArg_self (arg : Word) (i : Instr) : fixedArg arg arg i = some i := fixedArg_eq_some_iff.2 ⟨rfl, rfl⟩

theorem rcaArg_halves (rca : BitVec 16) : (rcaArg rca).extractLsb 15 0 = 0 ∧ (rcaArg rca).extractLsb 31 16 = rca := by
  unfold rcaArg
  exact ⟨by grind, by grind⟩

theorem eq_rcaArg {arg : Word} (h : arg.extractLsb 15 0 = 0) : arg = rcaArg (arg.extractLsb 31 16) := by
  unfold rcaArg
  grind

theorem rcaOfArg_eq_some_iff {arg : Word} {f : BitVec 16 → Instr} {i : Instr} :
    rcaOfArg arg f = some i ↔ ∃ rca, arg = rcaArg rca ∧ f rca = i := by
  unfold rcaOfArg
  constructor
  · intro h
    split at h
    · exact ⟨_, eq_rcaArg ‹_›, Option.some.inj h⟩
    · cases h
  · rintro ⟨rca, rfl, rfl⟩
    obtain ⟨low, high⟩ := rcaArg_halves rca
    rw [if_pos low, high]

theorem rcaOfArg_rcaArg (rca : BitVec 16) (f : BitVec 16 → Instr) : rcaOfArg (rcaArg rca) f = some (f rca) :=
  rcaOfArg_eq_some_iff.2 ⟨rca, rfl, rfl⟩

theorem opCondArg_fields (hcs : Bool) (vdd : BitVec 16) :
    (opCondArg hcs vdd).extractLsb 31 31 = 0 ∧ (opCondArg hcs vdd).getLsbD 30 = hcs ∧ (opCondArg hcs vdd).extractLsb 29 24 = 0 ∧
      (opCondArg hcs vdd).extractLsb 23 8 = vdd ∧ (opCondArg hcs vdd).extractLsb 7 0 = 0 := by
  unfold opCondArg
  refine ⟨?_, ?_, ?_, ?_, ?_⟩ <;> grind

theorem opCondArg_true_top (vdd : BitVec 16) : (opCondArg true vdd).extractLsb 31 24 = 0x40 := by
  unfold opCondArg
  grind

theorem eq_opCondArg {arg : Word} (h31 : arg.extractLsb 31 31 = 0) (h29 : arg.extractLsb 29 24 = 0) (h7 : arg.extractLsb 7 0 = 0) :
    arg = opCondArg (arg.getLsbD 30) (arg.extractLsb 23 8) := by
  unfold opCondArg
  grind

theorem eq_opCondArg_true {arg : Word} (top : arg.extractLsb 31 24 = 0x40) (h7 : arg.extractLsb 7 0 = 0) :
    arg = opCondArg true (arg.extractLsb 23 8) := by
  unfold opCondArg
  grind

theorem switchArg_fields (index value : BitVec 8) :
    (switchArg index value).extractLsb 31 24 = 3 ∧ (switchArg index value).extractLsb 23 16 = index ∧
      (switchArg index value).extractLsb 15 8 = value ∧ (switchArg index value).extractLsb 7 0 = 0 := by
  unfold switchArg
  refine ⟨?_, ?_, ?_, ?_⟩ <;> grind

theorem eq_switchArg {arg : Word} (access : arg.extractLsb 31 24 = 3) (h7 : arg.extractLsb 7 0 = 0) :
    arg = switchArg (arg.extractLsb 23 16) (arg.extractLsb 15 8) := by
  unfold switchArg
  grind

theorem countArg_halves (count : BitVec 16) :
    (0#16 ++ count : Word).extractLsb 31 16 = 0 ∧ (0#16 ++ count : Word).extractLsb 15 0 = count := by
  exact ⟨by grind, by grind⟩

theorem eq_countArg {arg : Word} (h : arg.extractLsb 31 16 = 0) : arg = 0#16 ++ arg.extractLsb 15 0 := by
  grind

/-! ### The rows of R105 -/

/-- The descriptor of a card command, `none` for the operations of the other two formats. -/
def Instr.descriptor : Instr → Option Descriptor
  | .goIdleState => some cdGoIdleState
  | .sendIfCond => some cdSendIfCond
  | .appCmd rca => some (cdAppCmd rca)
  | .sdSendOpCond hcs vdd => some (cdSdSendOpCond hcs vdd)
  | .sendOpCond vdd => some (cdSendOpCond vdd)
  | .allSendCid => some cdAllSendCid
  | .sendRelativeAddr => some cdSendRelativeAddr
  | .setRelativeAddr rca => some (cdSetRelativeAddr rca)
  | .sendCsd rca => some (cdSendCsd rca)
  | .selectCard rca => some (cdSelectCard rca)
  | .sendExtCsd => some cdSendExtCsd
  | .switchFunc => some cdSwitchFunc
  | .switch index value => some (cdSwitch index value)
  | .sendStatus rca => some (cdSendStatus rca)
  | .setClrCardDetect => some cdSetClrCardDetect
  | .acmdSetBusWidth => some cdAcmdSetBusWidth
  | .readSingleBlock arg => some (cdReadSingleBlock arg)
  | .readMultipleBlock arg => some (cdReadMultipleBlock arg)
  | .writeBlock arg => some (cdWriteBlock arg)
  | .writeMultipleBlock arg => some (cdWriteMultipleBlock arg)
  | .setBlockCount count => some (cdSetBlockCount count)
  | .stopTransmission => some cdStopTransmission
  | .init _ _ _ | .deinit _ _ _ | .getDevInfo _ _ _ | .getCid _ _ _ | .getWriteProtBits _ _ _ | .getSectors _ _ _
  | .readSectors _ _ _ _ | .writeSectors _ _ _ _ | .issue _ _ _ _ _ | .setClock _ _ | .setBusWidth _ _ | .cardPresent _
  | .writeProtectPin _ | .cmdResponseR1 | .cmdResponseR1b | .cmdResponseR2 | .cmdResponseR3 | .cmdResponseR6 | .cmdResponseR7
  | .ctlReset => none

theorem encode_of_descriptor {i : Instr} {d : Descriptor} (h : i.descriptor = some d) : encode i = .cd d.word := by
  cases i <;> cases h <;> rfl

/-- The decoder finds the row of a command's descriptor, wherever the command's word may stand (R106). -/
theorem commandOf_of_descriptor {app : Bool} {i : Instr} {d : Descriptor} (h : i.descriptor = some d)
    (k : i.selectedAfter app = true) : commandOf app d = some i := by
  cases i <;> cases h
  case sdSendOpCond hcs vdd =>
    obtain ⟨h31, h30, h29, window, h7⟩ := opCondArg_fields hcs vdd
    refine (if_pos ⟨k, h31, h29, h7⟩).trans ?_
    exact congrArg some (congrArg₂ Instr.sdSendOpCond h30 window)
  case sendOpCond vdd =>
    obtain ⟨_, _, _, window, h7⟩ := opCondArg_fields true vdd
    exact (if_pos ⟨opCondArg_true_top vdd, h7⟩).trans (congrArg (some ∘ Instr.sendOpCond) window)
  case switch index value =>
    obtain ⟨access, hindex, hvalue, h7⟩ := switchArg_fields index value
    refine (if_pos ⟨Bool.eq_false_of_not_eq_true' k, access, h7⟩).trans ?_
    exact congrArg some (congrArg₂ Instr.switch hindex hvalue)
  case setBlockCount count =>
    obtain ⟨high, low⟩ := countArg_halves count
    exact (if_pos high).trans (congrArg (some ∘ Instr.setBlockCount) low)
  case appCmd | setRelativeAddr | sendCsd | selectCard | sendStatus => exact rcaOfArg_rcaArg _ _
  case setClrCardDetect | acmdSetBusWidth => exact (if_pos k).trans (fixedArg_self _ _)
  case switchFunc =>
    have bare : app = false := Bool.eq_false_of_not_eq_true' k
    rw [bare]
    rfl
  case readSingleBlock | readMultipleBlock | writeBlock | writeMultipleBlock => rfl
  case goIdleState | sendIfCond | allSendCid | sendRelativeAddr | sendExtCsd | stopTransmission => exact fixedArg_self _ _

theorem descriptor_of_arg {d : Descriptor} {arg : Word} {i : Instr} (row : i.descriptor = some { d with arg := arg })
    (h : d.arg = arg) : i.descriptor = some d := by
  rw [row, ← h]

/-- A row with a fixed argument. -/
theorem row_of_fixedArg {app : Bool} {d : Descriptor} {want : Word} {i j : Instr} (row : j.descriptor = some { d with arg := want })
    (stands : j.selectedAfter app = true) (h : fixedArg d.arg want j = some i) :
    i.descriptor = some d ∧ i.selectedAfter app = true := by
  obtain ⟨rfl, rfl⟩ := fixedArg_eq_some_iff.1 h
  exact ⟨row, stands⟩

/-- A row whose argument is an RCA (R99). -/
theorem row_of_rcaOfArg {app : Bool} {d : Descriptor} {f : BitVec 16 → Instr} {i : Instr}
    (row : ∀ rca, (f rca).descriptor = some { d with arg := rcaArg rca }) (stands : ∀ rca, (f rca).selectedAfter app = true)
    (h : rcaOfArg d.arg f = some i) : i.descriptor = some d ∧ i.selectedAfter app = true := by
  obtain ⟨rca, harg, rfl⟩ := rcaOfArg_eq_some_iff.1 h
  exact ⟨descriptor_of_arg (row rca) harg, stands rca⟩

theorem eq_ofNat_of_toNat {x : BitVec 6} {n : Nat} (h : x.toNat = n) : x = BitVec.ofNat 6 n := by
  rw [← h, BitVec.ofNat_toNat, BitVec.setWidth_eq]

/-- A command that the decoder finds has the descriptor, bit for bit, and its word may stand there (R106). -/
theorem descriptor_of_commandOf {app : Bool} {i : Instr} {d : Descriptor} (h : commandOf app d = some i) :
    i.descriptor = some d ∧ i.selectedAfter app = true := by
  obtain ⟨rk, dir, index, arg⟩ := d
  unfold commandOf at h
  dsimp only at h
  split at h
  case h_23 => cases h
  all_goals
    rename_i hindex
    obtain rfl := eq_ofNat_of_toNat hindex
  · exact row_of_fixedArg (j := .goIdleState) rfl rfl h
  · exact row_of_fixedArg (j := .sendIfCond) rfl rfl h
  · exact row_of_rcaOfArg (f := .appCmd) (fun _ => rfl) (fun _ => rfl) h
  · split at h
    · rename_i fields
      obtain ⟨rfl, h31, h29, h7⟩ := fields
      cases h
      exact ⟨descriptor_of_arg rfl (eq_opCondArg h31 h29 h7), rfl⟩
    · cases h
  · split at h
    · rename_i fields
      obtain ⟨top, h7⟩ := fields
      cases h
      exact ⟨descriptor_of_arg rfl (eq_opCondArg_true top h7), rfl⟩
    · cases h
  · exact row_of_fixedArg (j := .allSendCid) rfl rfl h
  · exact row_of_fixedArg (j := .sendRelativeAddr) rfl rfl h
  · exact row_of_rcaOfArg (f := .setRelativeAddr) (fun _ => rfl) (fun _ => rfl) h
  · exact row_of_rcaOfArg (f := .sendCsd) (fun _ => rfl) (fun _ => rfl) h
  · exact row_of_rcaOfArg (f := .selectCard) (fun _ => rfl) (fun _ => rfl) h
  · exact row_of_fixedArg (j := .sendExtCsd) rfl rfl h
  · cases app
    · exact row_of_fixedArg (j := .switchFunc) rfl rfl h
    · cases h
  · split at h
    · rename_i fields
      obtain ⟨rfl, access, h7⟩ := fields
      cases h
      exact ⟨descriptor_of_arg rfl (eq_switchArg access h7), rfl⟩
    · cases h
  · exact row_of_rcaOfArg (f := .sendStatus) (fun _ => rfl) (fun _ => rfl) h
  · cases app
    · cases h
    · exact row_of_fixedArg (j := .setClrCardDetect) rfl rfl h
  · cases app
    · cases h
    · exact row_of_fixedArg (j := .acmdSetBusWidth) rfl rfl h
  · cases h
    exact ⟨rfl, rfl⟩
  · cases h
    exact ⟨rfl, rfl⟩
  · cases h
    exact ⟨rfl, rfl⟩
  · cases h
    exact ⟨rfl, rfl⟩
  · split at h
    · rename_i high
      cases h
      exact ⟨descriptor_of_arg rfl (eq_countArg high), rfl⟩
    · cases h
  · exact row_of_fixedArg (j := .stopTransmission) rfl rfl h

/-- The decoder's table of commands is the table of descriptors, read the other way (R105, R106). -/
theorem commandOf_eq_some_iff {app : Bool} {d : Descriptor} {i : Instr} :
    commandOf app d = some i ↔ i.descriptor = some d ∧ i.selectedAfter app = true :=
  ⟨descriptor_of_commandOf, fun ⟨h, k⟩ => commandOf_of_descriptor h k⟩

/-! ### PO words (30_encoding.md R88, R89) -/

theorem primWord_operand (op : BitVec 8) (x : Word) : (primWord op x).extractLsb 31 0 = x := by
  unfold primWord
  grind

/-- R107: no primitive operation has a number of 0x0C or more. -/
theorem decodePrim_of_large {w : BitVec 40} (h : 0x0C ≤ (w.extractLsb 39 32).toNat) (p : Port) (x : IssueOperands) :
    decodePrim w p x = .error (.noPrimOp (w.extractLsb 39 32).toNat) := by
  unfold decodePrim
  split
  case h_13 => rfl
  all_goals omega

/-- R107: `issue` takes no operand word that is no descriptor. -/
theorem decodePrim_of_notDescriptor {w : BitVec 40} {x : IssueOperands} (h : w.extractLsb 39 32 = 0)
    (k : Descriptor.ofWord x.cd = Option.none) (p : Port) : decodePrim w p x = .error .notDescriptor := by
  unfold decodePrim
  rw [h]
  simp [k]

theorem decodePrim_issue (p : Port) (cd : Descriptor) (bc bs : BitVec 16) (buf : PrimBuf) :
    decodePrim (primWord 0x00 0) p ⟨cd.word, bc, bs, buf⟩ = .ok (.issue p cd bc bs buf) := by
  simp [decodePrim, primWord_op]

/-! ### The decoder -/

/-- A request's buffer is null where the request has none: then its encoding holds all of it. -/
theorem decode_encode_request {op : HostOp} {d : BitVec 8} {c : BitVec 16} {s : Word} {buf : HostBuf} (app : Bool)
    (h : encode (op.request d c s buf) = .hr (hostWord op d c s) buf) :
    decode app (encode (op.request d c s buf)) = .ok (op.request d c s buf) := by
  rw [h]
  exact decodeHost_hostWord op d c s buf

theorem decode_encode_command {app : Bool} {i : Instr} {d : Descriptor} (h : i.descriptor = some d)
    (k : i.selectedAfter app = true) : decode app (encode i) = .ok i := by
  rw [encode_of_descriptor h]
  exact decodeCommand_word_of_some (commandOf_of_descriptor h k)

end Sys2Proof
end

section
/-! A command without data, and the pair of an application command: outcome, history and frame (40_controller_primitive.md R121 to R129,
30_encoding.md R104). -/

namespace Sys2Proof.Machine

/-! ### Phases 4 to 6 without data -/

theorem receive_none (a : CardAnswer) (t : State) :
    receive .none a t = (setResp .none Words4.zero t, if a = .ctlFail then .fail else .ok) := rfl

theorem receive_good {rk : RespKind} (h : rk ≠ .none) (r : Words4) (t : State) :
    receive rk (.good r) t = (setResp rk r t, .ok) := if_neg h

theorem receive_silent {rk : RespKind} (h : rk ≠ .none) (t : State) : receive rk .silent t = (t, .timeout) := if_neg h

theorem receive_badCrc {rk : RespKind} (h : rk ≠ .none) (t : State) : receive rk .badCrc t = (t, .crc) := if_neg h

theorem receive_ctlFail {rk : RespKind} (h : rk ≠ .none) (t : State) : receive rk .ctlFail t = (t, .fail) := if_neg h

theorem receive_frame (rk : RespKind) (a : CardAnswer) (t : State) :
    (receive rk a t).1.hist = t.hist ∧ (receive rk a t).1.env = { t.env with draws := (receive rk a t).1.env.draws } := by
  unfold receive
  split
  · exact ⟨rfl, rfl⟩
  · cases a <;> exact ⟨rfl, rfl⟩

/-- The response registers hold what the card has sent (42_response_parser.md R176). -/
theorem setResp_holds (rk : RespKind) (r : Words4) (s : State) : holdsResponse rk r (setResp rk r s).ctl.resp := by
  cases rk <;> trivial

theorem specifiedWords_of_holds {rk : RespKind} {r x : Words4} (h : holdsResponse rk r x) (st : TStatus) :
    specifiedWords rk st x = specifiedWords rk st r := by
  unfold specifiedWords
  cases rk <;> simp only [holdsResponse] at h <;> simp only [h]

theorem specifiedWords_of_failed {st : TStatus} (h : st ≠ .ok) (rk : RespKind) (x : Words4) : specifiedWords rk st x = [] := if_neg h

theorem specifiedWords_none (st : TStatus) (x : Words4) : specifiedWords .none st x = [] := ite_self _

theorem waitPhase_of_failed (cd : Descriptor) (t : State) {st : TStatus} (h : st ≠ .ok) : waitPhase cd (t, st) = (t, st) := if_neg h

theorem waitPhase_noWait {cd : Descriptor} (h : cd.rk ≠ .r1b) (k : cd.dir = .none) (r : State × TStatus) : waitPhase cd r = r := by
  obtain ⟨t, st⟩ := r
  unfold waitPhase busyPhase
  cases st <;> simp [h, k]

/-- After an accepted R1b the card's busy wait decides (R126). -/
theorem waitPhase_r1b {cd : Descriptor} (h : cd.rk = .r1b) (t : State) :
    (t.nextBusy = .released ∧ waitPhase cd (t, .ok) = (t.dropBusy, .ok)) ∨
      (t.nextBusy = .timeout ∧ waitPhase cd (t, .ok) = (t.dropBusy, .timeout)) := by
  unfold waitPhase busyPhase
  cases t.nextBusy <;> simp [h]

theorem nextBusy_of_head {s : State} {b : BusyAnswer} (h : s.env.busy.head? = some b) : s.nextBusy = b := by
  unfold State.nextBusy
  cases hb : s.env.busy with
  | nil => simp [hb] at h
  | cons x rest => simpa [hb] using h

theorem waitPhase_frame (cd : Descriptor) (r : State × TStatus) :
    (waitPhase cd r).1.hist = r.1.hist ∧ (waitPhase cd r).1.de = r.1.de ∧
      (waitPhase cd r).1.env =
        { r.1.env with busy := (waitPhase cd r).1.env.busy, draws := (waitPhase cd r).1.env.draws } := by
  unfold waitPhase busyPhase
  split
  · split <;> exact ⟨rfl, rfl, rfl⟩
  · exact ⟨rfl, rfl, rfl⟩

theorem answered_noData {cd : Descriptor} (h : cd.dir = .none) (bc : BitVec 16) (s : State) :
    answered cd bc s = waitPhase cd (receive cd.rk s.nextAnswer s.dropAnswer) := by
  rw [answered, dataPhase, if_neg (by simp [h]), responsePhase]

theorem answered_noData_frame {cd : Descriptor} (h : cd.dir = .none) (bc : BitVec 16) (s : State) :
    (answered cd bc s).1.hist = s.hist ∧ (answered cd bc s).1.de = s.de ∧
      (answered cd bc s).1.env = { s.env with
        answers := s.env.answers.tail, busy := (answered cd bc s).1.env.busy, draws := (answered cd bc s).1.env.draws } := by
  rw [answered_noData h]
  obtain ⟨hist, env⟩ := receive_frame cd.rk s.nextAnswer s.dropAnswer
  obtain ⟨_, _, de⟩ := receive_noStore cd.rk s.nextAnswer s.dropAnswer
  obtain ⟨hist', de', env'⟩ := waitPhase_frame cd (receive cd.rk s.nextAnswer s.dropAnswer)
  exact ⟨hist'.trans hist, de'.trans de, by rw [env', env]; rfl⟩

/-- A command without data ends as the card's next answers say, and a good response stands in the registers (R124, R126). -/
theorem answered_outcome {cd : Descriptor} (h : cd.dir = .none) (bc : BitVec 16) (s : State) :
    s.Outcome cd (answered cd bc s).2 (specifiedWords cd.rk (answered cd bc s).2 (answered cd bc s).1.ctl.resp) ∧
      ∀ r, s.nextAnswer = .good r → (answered cd bc s).2 = .ok → holdsResponse cd.rk r (answered cd bc s).1.ctl.resp := by
  rw [answered_noData h]
  unfold State.Outcome
  by_cases noResponse : cd.rk = .none
  · rw [if_pos noResponse, waitPhase_noWait (by simp [noResponse]) h, noResponse, receive_none, specifiedWords_none]
    exact ⟨⟨rfl, rfl⟩, fun _ _ _ => trivial⟩
  · rw [if_neg noResponse]
    cases s.nextAnswer with
    | silent =>
      rw [receive_silent noResponse, waitPhase_of_failed cd _ (by decide)]
      exact ⟨⟨rfl, rfl⟩, nofun⟩
    | badCrc =>
      rw [receive_badCrc noResponse, waitPhase_of_failed cd _ (by decide)]
      exact ⟨⟨rfl, rfl⟩, nofun⟩
    | ctlFail =>
      rw [receive_ctlFail noResponse, waitPhase_of_failed cd _ (by decide)]
      exact ⟨⟨rfl, rfl⟩, nofun⟩
    | good r =>
      have holds := setResp_holds cd.rk r s.dropAnswer
      rw [receive_good noResponse]
      by_cases waits : cd.rk = .r1b
      · have scripted : ∀ b, s.env.busy.head? = some b → (setResp cd.rk r s.dropAnswer).nextBusy = b := fun b hb => nextBusy_of_head hb
        rcases waitPhase_r1b waits (setResp cd.rk r s.dropAnswer) with ⟨released, run⟩ | ⟨expired, run⟩
        · rw [released] at scripted
          rw [run]
          refine ⟨⟨specifiedWords_of_holds holds _, .inl rfl, fun _ => ⟨fun _ => rfl, fun hb => nomatch scripted _ hb⟩⟩, ?_⟩
          rintro _ ⟨⟩ _
          exact holds
        · rw [expired] at scripted
          rw [run]
          exact ⟨⟨specifiedWords_of_holds holds _, .inr ⟨waits, rfl⟩, fun _ => ⟨fun hb => (nomatch scripted _ hb), fun _ => rfl⟩⟩,
            nofun⟩
      · rw [waitPhase_noWait waits h]
        refine ⟨⟨specifiedWords_of_holds holds _, .inl rfl, fun k => absurd k waits⟩, ?_⟩
        rintro _ ⟨⟩ _
        exact holds

/-! ### Phase 7 -/

theorem interruptCycle_frame (s : State) :
    (interruptCycle s).hist = s.hist ++ irqEvents s.cfg ∧ (interruptCycle s).ctl.resp = s.ctl.resp ∧ (interruptCycle s).env = s.env := by
  unfold interruptCycle irqEvents
  cases s.cfg.hasIrq <;> simp

/-- The closing events of an `issue` (R127); after a failure no response word is specified. -/
theorem completeIssue_hist (rk : RespKind) (st : TStatus) (s : State) :
    (completeIssue rk st s).hist = s.hist ++ irqEvents s.cfg ++ [.resp st (specifiedWords rk st s.ctl.resp)] := by
  obtain ⟨hist, resp, _⟩ := interruptCycle_frame s
  unfold completeIssue
  split
  · rw [log_hist]
    dsimp only
    rw [hist, resp]
  · rename_i failed
    rw [log_hist, specifiedWords_of_failed failed, specifiedWords_of_failed failed, ← hist]
    rfl

theorem completeIssue_env (rk : RespKind) (st : TStatus) (s : State) :
    (completeIssue rk st s).env = { s.env with draws := (completeIssue rk st s).env.draws } := by
  obtain ⟨_, _, env⟩ := interruptCycle_frame s
  unfold completeIssue
  split <;> rw [← env] <;> rfl

/-! ### A command without data -/

theorem dispatched_noData {cd : Descriptor} (h : cd.dir = .none) (p : Port) (bc bs : BitVec 16) (buf : PrimBuf) (s : State) :
    dispatched p cd bc bs buf s = (beginIssue p s).log (.cmd p cd) := by
  rw [dispatched, armEngine, if_pos h]

theorem Issued.sameOutside {p : Port} {s t : State} (h : Issued p s t) : s.SameOutside t :=
  ⟨h.slot, h.pin, h.host, h.cfg, h.fetch, h.clk, h.width, h.clkSet, h.widthSet⟩

theorem issueRun_afterIssue (p : Port) (cd : Descriptor) (bc bs : BitVec 16) (buf : PrimBuf) (s : State) :
    s.AfterIssue p cd.rk (issueRun p cd bc bs buf s).ctl.tstatus (issueRun p cd bc bs buf s) := by
  have run := issueRun_issued p cd bc bs buf s
  obtain ⟨_, _, _, _, _, _, _, status, kind, _⟩ :=
    completeIssue_ctl cd.rk (answered cd bc (dispatched p cd bc bs buf s)).2 (answered cd bc (dispatched p cd bc bs buf s)).1
  exact ⟨run.sel, rfl, kind.trans (by rw [issueRun, status]), run.busy, run.irq, run.armed, run.sameOutside⟩

theorem issueRun_noData {cd : Descriptor} (h : cd.dir = .none) (p : Port) (bc bs : BitVec 16) (buf : PrimBuf) (s : State) :
    issueRun p cd bc bs buf s = completeIssue cd.rk (answered cd bc ((beginIssue p s).log (.cmd p cd))).2
      (answered cd bc ((beginIssue p s).log (.cmd p cd))).1 := by
  unfold issueRun
  rw [dispatched_noData h]

theorem issueRun_noData_de {cd : Descriptor} (h : cd.dir = .none) (p : Port) (bc bs : BitVec 16) (buf : PrimBuf) (s : State) :
    (issueRun p cd bc bs buf s).de = { s.de with armed := false } := by
  rw [issueRun_noData h]
  obtain ⟨_, _, _, _, _, _, _, _, disarmed⟩ := completeIssue_keeps cd.rk (answered cd bc ((beginIssue p s).log (.cmd p cd))).2
    (answered cd bc ((beginIssue p s).log (.cmd p cd))).1
  obtain ⟨_, de, _⟩ := answered_noData_frame h bc ((beginIssue p s).log (.cmd p cd))
  rw [disarmed, de]
  rfl

/-- A command without data takes one answer of the card, and of the other scripts at most the end of a busy wait. -/
theorem issueRun_noData_env {cd : Descriptor} (h : cd.dir = .none) (p : Port) (bc bs : BitVec 16) (buf : PrimBuf) (s : State) :
    (issueRun p cd bc bs buf s).env = { s.env with
      answers := s.env.answers.tail
      busy := (issueRun p cd bc bs buf s).env.busy
      draws := (issueRun p cd bc bs buf s).env.draws } := by
  rw [issueRun_noData h]
  obtain ⟨_, _, env⟩ := answered_noData_frame h bc ((beginIssue p s).log (.cmd p cd))
  rw [completeIssue_env, env]
  rfl

/-- How a command without data ends: the outcome that the card's next answers ask for, recorded in the history after the command. -/
theorem issueRun_noData_reply {cd : Descriptor} (h : cd.dir = .none) (p : Port) (bc bs : BitVec 16) (buf : PrimBuf) (s : State) :
    ∃ words, s.Outcome cd (issueRun p cd bc bs buf s).ctl.tstatus words ∧
      (∀ r, s.nextAnswer = .good r → (issueRun p cd bc bs buf s).ctl.tstatus = .ok →
        holdsResponse cd.rk r (issueRun p cd bc bs buf s).ctl.resp) ∧
      (issueRun p cd bc bs buf s).hist =
        s.hist ++ [.cmd p cd] ++ irqEvents s.cfg ++ [.resp (issueRun p cd bc bs buf s).ctl.tstatus words] := by
  rw [issueRun_noData h]
  obtain ⟨_, _, _, _, _, _, _, status, _, resp⟩ := completeIssue_ctl cd.rk (answered cd bc ((beginIssue p s).log (.cmd p cd))).2
    (answered cd bc ((beginIssue p s).log (.cmd p cd))).1
  obtain ⟨outcome, holds⟩ := answered_outcome h bc ((beginIssue p s).log (.cmd p cd))
  obtain ⟨hist, _, _⟩ := answered_noData_frame h bc ((beginIssue p s).log (.cmd p cd))
  have cfg := (answered_carried cd bc ((beginIssue p s).log (.cmd p cd))).cfg
  rw [status]
  refine ⟨_, outcome, fun r good ok => ?_, ?_⟩
  · rw [resp ok]
    exact holds r good ok
  · rw [completeIssue_hist, hist, cfg]
    rfl

/-- What a whole `issue` of a command without data does, on any port and whatever the card answers. -/
theorem issueRun_commandSent {cd : Descriptor} (h : cd.dir = .none) (p : Port) (bc bs : BitVec 16) (buf : PrimBuf) (s : State) :
    ∃ words, s.CommandSent p cd (issueRun p cd bc bs buf s).ctl.tstatus words (issueRun p cd bc bs buf s) := by
  obtain ⟨words, outcome, holds, hist⟩ := issueRun_noData_reply h p bc bs buf s
  obtain ⟨mem, _⟩ := issueRun_noStore p cd bc bs buf s (dir_ne_read h)
  have env := issueRun_noData_env h p bc bs buf s
  refine ⟨words, outcome, issueRun_afterIssue p cd bc bs buf s, holds, hist, issueRun_noData_de h p bc bs buf s, fun a => by rw [mem],
    (issueRun_issued p cd bc bs buf s).prim, ?_, ?_, ?_, ?_, ?_⟩
  all_goals rw [env]

/-- A command without data of the sequencer's port. -/
theorem issueCommand_sent_of_ready {cd : Descriptor} {s : State} (h : cd.dir = .none) (ready : s.ready s.seq.cur = true) :
    ∃ t st words, issueCommand s.seq.cur cd s = .next t ∧ s.CommandSent s.seq.cur cd st words t ∧ t.ctl.tstatus = st ∧ t.seq = s.seq := by
  obtain ⟨words, sent⟩ := issueRun_commandSent h s.seq.cur 0 0 .null s
  have accepted := issueRefusal_noData s.seq.cur cd 0 0 .null s h ready rfl
  exact ⟨_, _, words, by rw [issueCommand, issue, accepted], sent, rfl, (issueRun_noStore _ _ _ _ _ s (dir_ne_read h)).2⟩

/-! ### Application commands (30_encoding.md R104) -/

/-- CMD55 and, only if it ended with T_OK, the command. -/
theorem acmdRun_pairSent {cd : Descriptor} (h : cd.dir = .none) (s : State) :
    s.PairSent cd (acmdRun s.seq.cur s.seq.w.rca cd s).ctl.tstatus (acmdRun s.seq.cur s.seq.w.rca cd s) := by
  obtain ⟨w1, appCmd⟩ := issueRun_commandSent (cd := cdAppCmd s.seq.w.rca) rfl s.seq.cur 0 0 .null s
  obtain ⟨_, seq⟩ := issueRun_noStore s.seq.cur (cdAppCmd s.seq.w.rca) 0 0 .null s nofun
  refine ⟨_, _, w1, appCmd, seq, ?_⟩
  unfold acmdRun afterAppCmd
  split
  · rename_i accepted
    exact .inr ⟨accepted, issueRun_commandSent h s.seq.cur 0 0 .null _⟩
  · rename_i failed
    exact .inl ⟨failed, rfl, rfl⟩

theorem appCommand_of_pending {s : State} (h : s.appPending s.seq.cur = true) (cd : Descriptor) :
    appCommand cd s = issueCommand s.seq.cur cd s := if_pos h

theorem appCommand_of_not_pending {s : State} (h : s.appPending s.seq.cur = false) (cd : Descriptor) :
    appCommand cd s = acmd s.seq.cur s.seq.w.rca cd s := if_neg (by simp [h])

/-- The pair of an application command without data, as the steps of `init` send it. -/
theorem acmd_sent_of_ready {cd : Descriptor} {s : State} (h : cd.dir = .none) (ready : s.ready s.seq.cur = true) :
    ∃ t st, acmd s.seq.cur s.seq.w.rca cd s = .next t ∧ s.PairSent cd st t ∧ t.ctl.tstatus = st ∧ t.seq = s.seq := by
  have accepted := issueRefusal_noData s.seq.cur cd 0 0 .null s h ready rfl
  exact ⟨_, _, by rw [acmd, accepted], acmdRun_pairSent h s, rfl, (acmdRun_noStore _ _ s h).2⟩

/-- The OCR is kept on T_OK, and nothing else changes (41_card_commands.md R153). -/
theorem keepOcr_eq (t : State) : keepOcr t = .next { t with
    seq := if t.ctl.tstatus = .ok then { t.seq with tmp := { t.seq.tmp with ocr := t.ctl.resp.w0 } } else t.seq } := by
  unfold keepOcr onOk
  split <;> rfl

/-- What a command keeps in the sequencer's own registers does not touch what was sent. -/
theorem State.CommandSent.withSeq {p : Port} {cd : Descriptor} {st : TStatus} {words : List Word} {s t : State}
    (h : s.CommandSent p cd st words t) (q : Sequencer) : s.CommandSent p cd st words { t with seq := q } := h

theorem sdSendOpCond_alone {s : State} (ready : s.ready s.seq.cur = true) (pending : s.appPending s.seq.cur = true) (hcs : Bool)
    (vdd : BitVec 16) :
    ∃ t st words, exec (.sdSendOpCond hcs vdd) s = .next t ∧ s.CommandSent s.seq.cur (cdSdSendOpCond hcs vdd) st words t ∧
      t.seq = if st = .ok then { s.seq with tmp := { s.seq.tmp with ocr := t.ctl.resp.w0 } } else s.seq := by
  obtain ⟨u, st, words, run, sent, status, seq⟩ := issueCommand_sent_of_ready (cd := cdSdSendOpCond hcs vdd) rfl ready
  refine ⟨{ u with seq := if st = .ok then { s.seq with tmp := { s.seq.tmp with ocr := u.ctl.resp.w0 } } else s.seq }, st, words, ?_,
    sent.withSeq _, rfl⟩
  change andThen (appCommand (cdSdSendOpCond hcs vdd) s) keepOcr = _
  rw [appCommand_of_pending pending, run, ← seq, ← status]
  exact keepOcr_eq u

theorem sendSdOpCond_pair {s : State} (ready : s.ready s.seq.cur = true) (hcs : Bool) (vdd : BitVec 16) :
    ∃ u t st, sendSdOpCond hcs vdd s = .next t ∧ s.PairSent (cdSdSendOpCond hcs vdd) st u ∧ u.ctl.tstatus = st ∧
      t = { u with seq := if st = .ok then { s.seq with tmp := { s.seq.tmp with ocr := u.ctl.resp.w0 } } else s.seq } := by
  obtain ⟨u, st, run, sent, status, seq⟩ := acmd_sent_of_ready (cd := cdSdSendOpCond hcs vdd) rfl ready
  refine ⟨u, _, st, ?_, sent, status, rfl⟩
  rw [sendSdOpCond, run, ← seq, ← status]
  exact keepOcr_eq u

end Sys2Proof.Machine
end

section
/-! The statements of the encoding family (30_encoding.md): the decoder against the encoder, the words that it refuses, and the application
commands. -/

namespace Sys2Proof.Machine

/-- Settles O1, format by format: a request by its number, a primitive operation by its operation field, a command by its descriptor. -/
theorem decodeEncode : Obligations.DecodeEncode := by
  intro i app h
  cases i
  case init d c s => exact decode_encode_request (op := .init) app rfl
  case deinit d c s => exact decode_encode_request (op := .deinit) app rfl
  case getDevInfo d c s => exact decode_encode_request (op := .getDevInfo) app rfl
  case getCid d c s => exact decode_encode_request (op := .getCid) app rfl
  case getWriteProtBits d c s => exact decode_encode_request (op := .getWriteProtBits) app rfl
  case getSectors d c s => exact decode_encode_request (op := .getSectors) app rfl
  case readSectors d c s buf => exact decode_encode_request (op := .readSectors) app rfl
  case writeSectors d c s buf => exact decode_encode_request (op := .writeSectors) app rfl
  case issue p cd bc bs buf => exact decodePrim_issue p cd bc bs buf
  case setClock | setBusWidth | cardPresent | writeProtectPin | cmdResponseR1 | cmdResponseR1b | cmdResponseR2 | cmdResponseR3
      | cmdResponseR6 | cmdResponseR7 | ctlReset =>
    simp only [encode, decode, decodePrim, primWord_op, primWord_operand]
    rfl
  all_goals exact decode_encode_command rfl h

/-- Settles O2: a CD word that decodes is the word of its command's descriptor, an HR word that of its request. -/
theorem decodedWordsAreExact : Obligations.DecodedWordsAreExact := by
  refine ⟨fun app w i h => ?_, fun app w buf i h => encode_of_decodeHost h⟩
  obtain ⟨d, rfl, found⟩ := exists_descriptor_of_decodeCommand h
  obtain ⟨row, stands⟩ := commandOf_eq_some_iff.1 found
  exact ⟨encode_of_descriptor row, stands⟩

/-- Settles O3: each word is one of the table, digit by digit. -/
theorem tableWordsDecode : Obligations.TableWordsDecode := by
  unfold Obligations.TableWordsDecode
  decide

/-- Settles O4: the decoder's refusal of each word, which `step` answers with. -/
theorem undecodableWordsRefused : Obligations.UndecodableWordsRefused := by
  intro s
  refine ⟨fun w buf hf large => ?_, fun w p x hf large => ?_, fun w hf broken => ?_, fun w p x hf issue broken => ?_,
    fun w hf rk dir high low unlisted => ?_⟩
  · exact step_of_decode_error hf (decodeHost_of_large large buf)
  · exact step_of_decode_error hf (decodePrim_of_large large p x)
  · exact step_of_decode_error hf (decodeCommand_of_notDescriptor _ (Descriptor.ofWord_eq_none_iff.2 broken))
  · exact step_of_decode_error hf (decodePrim_of_notDescriptor issue (Descriptor.ofWord_eq_none_iff.2 broken) p)
  · cases hw : Descriptor.ofWord w with
    | none => exact absurd (Descriptor.ofWord_eq_none_iff.1 hw) (by tauto)
    | some d =>
      obtain rfl := Descriptor.ofWord_eq_some_iff.1 hw
      refine step_of_decode_error hf (decodeCommand_word_of_none (Option.eq_none_iff_forall_ne_some.2 fun i found => ?_))
      obtain ⟨row, stands⟩ := commandOf_eq_some_iff.1 found
      exact Bool.false_ne_true ((unlisted i (encode_of_descriptor row)).symm.trans stands)

/-- Settles O27: the pair where no accepted CMD55 precedes, the command alone where one does. -/
theorem applicationCommands : Obligations.ApplicationCommands := by
  intro s ready
  refine ⟨fun hcs vdd => ?_, ?_, ?_, fun pending => ⟨fun hcs vdd => sdSendOpCond_alone ready pending hcs vdd, ?_, ?_⟩⟩
  · obtain ⟨u, t, st, run, sent, status, kept⟩ := sendSdOpCond_pair ready hcs vdd
    refine ⟨u, t, st, run, sent, status, kept, fun bare => ?_⟩
    change andThen (appCommand (cdSdSendOpCond hcs vdd) s) keepOcr = _
    rw [appCommand_of_not_pending bare]
    exact run
  · obtain ⟨t, st, run, sent, _, seq⟩ := acmd_sent_of_ready (cd := cdSetClrCardDetect) rfl ready
    exact ⟨t, st, run, sent, seq, fun bare => (appCommand_of_not_pending bare _).trans run⟩
  · obtain ⟨t, st, run, sent, _, seq⟩ := acmd_sent_of_ready (cd := cdAcmdSetBusWidth) rfl ready
    exact ⟨t, st, run, sent, seq, fun bare => (appCommand_of_not_pending bare _).trans run⟩
  · obtain ⟨t, st, words, run, sent, _, seq⟩ := issueCommand_sent_of_ready (cd := cdSetClrCardDetect) rfl ready
    exact ⟨t, st, words, (appCommand_of_pending pending _).trans run, sent, seq⟩
  · obtain ⟨t, st, words, run, sent, _, seq⟩ := issueCommand_sent_of_ready (cd := cdAcmdSetBusWidth) rfl ready
    exact ⟨t, st, words, (appCommand_of_pending pending _).trans run, sent, seq⟩

end Sys2Proof.Machine
end

section
/-! The helpers of the primitive (40_controller_primitive.md R130 to R137): who may call them, and what each of them answers. -/

namespace Sys2Proof.Machine

/-! ### The arbiter (R130, R138) -/

theorem whenFree_of_busy {s : State} (busy : s.ctl.busy = true) (r : Step) : whenFree s r = .refused .controllerBusy := if_pos busy

theorem whenFree_of_free {s : State} (free : s.ctl.busy = false) (r : Step) : whenFree s r = r := if_neg (by simp [free])

theorem whenOpen_of_busy {s : State} (busy : s.ctl.busy = true) (p : Port) (r : Step) : whenOpen p s r = .refused .controllerBusy :=
  whenFree_of_busy busy _

theorem whenOpen_of_closed {p : Port} {s : State} (free : s.ctl.busy = false) (closed : s.portOpen p = false) (r : Step) :
    whenOpen p s r = .refused .portClosed := by
  rw [whenOpen, whenFree_of_free free, if_neg (by simp [closed])]

theorem whenOpen_of_open {p : Port} {s : State} (free : s.ctl.busy = false) (isOpen : s.portOpen p = true) (r : Step) :
    whenOpen p s r = r := by
  rw [whenOpen, whenFree_of_free free, if_pos isOpen]

theorem portOf_eq_some_iff {devNum : BitVec 8} {p : Port} : portOf devNum = some p ↔ devNum = devNumOf p := by
  refine ⟨devNumOf_of_portOf, ?_⟩
  rintro rfl
  cases p <;> rfl

/-- `init` stands at its guards for the device of port `p` (60_exceptions.md R305). -/
theorem initOpening_iff (s : State) (p : Port) : s.initOpening p = true ↔
    s.seq.busy = true ∧ s.seq.op.op = .init ∧ s.seq.pc = .iGuard ∧ s.seq.op.devNum = devNumOf p := by
  simp only [State.initOpening, Bool.and_eq_true, beq_iff_eq, portOf_eq_some_iff, and_assoc]

theorem presenceOpen_iff (s : State) (p : Port) : s.presenceOpen p = true ↔ s.portOpen p = true ∨
    (s.seq.busy = true ∧ s.seq.op.op = .init ∧ s.seq.pc = .iGuard ∧ s.seq.op.devNum = devNumOf p) := by
  rw [State.presenceOpen, Bool.or_eq_true, initOpening_iff]

/-! ### What the helpers run -/

section
variable {p : Port} {s : State}

theorem exec_setClock {hz : Word} (nonzero : hz ≠ 0) :
    exec (.setClock p hz) s = whenOpen p s (.next { setClockRun p hz s with prim := .none }) := if_neg nonzero

theorem exec_setBusWidth {w : Word} (legal : w = 1 ∨ w = 4) :
    exec (.setBusWidth p w) s = whenOpen p s (.next { setWidthRun p (w.setWidth 3) s with prim := .none }) := if_pos legal

theorem exec_setBusWidth_illegal {w : Word} (one : w ≠ 1) (four : w ≠ 4) : exec (.setBusWidth p w) s = .refused .widthIllegal :=
  if_neg (not_or.2 ⟨one, four⟩)

theorem exec_cardPresent (free : s.ctl.busy = false) : exec (.cardPresent p) s =
    if s.presenceOpen p then .next { presentRun p s with prim := .bit (s.presentLevel p) } else .refused .portClosed :=
  whenFree_of_free free _

theorem exec_writeProtectPin (free : s.ctl.busy = false) (isOpen : s.portOpen p = true) :
    exec (.writeProtectPin p) s = .next { wpPinRun p s with prim := .bit (s.wpLevel p) } := whenOpen_of_open free isOpen _

end

/-- A pin read is the sampling of the pins and its event. -/
theorem log_samplePins (e : Event) (s : State) : s.samplePins.log e = { s.samplePins with hist := s.hist ++ [e] } := by
  rw [State.log, samplePins_hist]

/-- The bus never runs faster than asked (R131, 00_scope.md R7). -/
theorem clkActual_le (hz : Word) : Config.clkActual hz ≤ hz := by
  unfold Config.clkActual
  split
  · assumption
  · exact BitVec.le_refl hz

/-- The two legal widths fit the three bits of the register. -/
theorem width_setWidth {w : Word} (legal : w = 1 ∨ w = 4) : w.setWidth 3 = if w = 4 then 4 else 1 := by
  obtain rfl | rfl := legal <;> rfl

/-! ### The one-word getters (R136) -/

/-- The one-word getters, each with the kind of response that it reads. -/
def wordGetters : List (Instr × RespKind) :=
  [(.cmdResponseR1, .r1), (.cmdResponseR1b, .r1b), (.cmdResponseR3, .r3), (.cmdResponseR6, .r6), (.cmdResponseR7, .r7)]

theorem exec_wordGetter {i : Instr} {rk : RespKind} (h : (i, rk) ∈ wordGetters) (s : State) : exec i s = getWord rk s := by
  simp only [wordGetters, List.mem_cons, Prod.mk.injEq, List.not_mem_nil, or_false] at h
  obtain ⟨rfl, rfl⟩ | ⟨rfl, rfl⟩ | ⟨rfl, rfl⟩ | ⟨rfl, rfl⟩ | ⟨rfl, rfl⟩ := h <;> rfl

theorem getWord_of_match {rk : RespKind} {s : State} (free : s.ctl.busy = false) (kind : s.ctl.respKind = rk) (ok : s.ctl.tstatus = .ok) :
    getWord rk s = .next { s with prim := .word s.ctl.resp.w0 } := by
  rw [getWord, whenFree_of_free free, if_pos ⟨kind, ok⟩]

theorem getWord_of_other {rk : RespKind} {s : State} (free : s.ctl.busy = false) (other : ¬(s.ctl.respKind = rk ∧ s.ctl.tstatus = .ok)) :
    getWord rk s = .next { s.bump with prim := .word (Config.unspecified Word s.env.draws 0) } := by
  rw [getWord, whenFree_of_free free, if_neg other]

/-! ### The statements -/

/-- Settles O12: the port's own registers are set, and `sel` names the port whose setting is in force (R135). -/
theorem helpersProgramOnePort : Obligations.HelpersProgramOnePort := by
  refine ⟨fun p hz s nonzero free isOpen => ?_, fun p w s legal free isOpen => ?_⟩
  · refine ⟨_, (exec_setClock nonzero).trans (whenOpen_of_open free isOpen _), rfl, rfl, pair_get_set_self _ _ _, pair_get_set_self _ _ _,
      pair_get_set_of_ne _ _ (port_other_ne p), pair_get_set_of_ne _ _ (port_other_ne p), ?_⟩
    change Config.clkActual ((s.ctl.clk.set p hz).get p) ≤ hz
    rw [pair_get_set_self]
    exact clkActual_le hz
  · rw [← width_setWidth legal]
    exact ⟨_, (exec_setBusWidth legal).trans (whenOpen_of_open free isOpen _), rfl, rfl, pair_get_set_self _ _ _, pair_get_set_self _ _ _,
      pair_get_set_of_ne _ _ (port_other_ne p), pair_get_set_of_ne _ _ (port_other_ne p), rfl⟩

/-- Settles O13: the operand, then the controller, then the port. -/
theorem helperContracts : Obligations.HelperContracts := by
  intro p hz w s
  refine ⟨rfl, exec_setBusWidth_illegal, fun busy => ⟨fun nonzero => ?_, fun legal => ?_, ?_, ?_, fun i getter => ?_⟩,
    fun free closed => ⟨fun nonzero => ?_, fun legal => ?_, ?_, fun notOpening => ?_⟩⟩
  · exact (exec_setClock nonzero).trans (whenOpen_of_busy busy p _)
  · exact (exec_setBusWidth legal).trans (whenOpen_of_busy busy p _)
  · exact whenFree_of_busy busy _
  · exact whenOpen_of_busy busy p _
  · simp only [List.mem_cons, List.not_mem_nil, or_false] at getter
    obtain rfl | rfl | rfl | rfl | rfl | rfl := getter
    all_goals exact whenFree_of_busy busy _
  · exact (exec_setClock nonzero).trans (whenOpen_of_closed free closed _)
  · exact (exec_setBusWidth legal).trans (whenOpen_of_closed free closed _)
  · exact whenOpen_of_closed free closed _
  · have shut : ¬s.presenceOpen p = true := by
      rw [presenceOpen_iff, closed]
      exact not_or.2 ⟨nofun, notOpening⟩
    rw [exec_cardPresent free, if_neg shut]

/-- Settles O14: a pin read samples the pins and records the level. -/
theorem pinReads : Obligations.PinReads := by
  intro p s free
  refine ⟨fun mayAsk => ?_, fun isOpen => ?_, fun isOpen => ?_, fun silent => ?_, fun l rest driven => ?_⟩
  · rw [exec_cardPresent free, if_pos ((presenceOpen_iff s p).2 mayAsk), presentRun, log_samplePins]
    rfl
  · rw [exec_writeProtectPin free isOpen, wpPinRun, log_samplePins]
    rfl
  · rw [exec_writeProtectPin free isOpen, wpPinRun, log_samplePins]
    rfl
  · rw [State.samplePins, silent]
  · rw [State.samplePins, driven]

/-- Settles O15: each getter reads the registers where they hold its kind, and draws a value where they do not. -/
theorem responseGetters : Obligations.ResponseGetters := by
  intro s free
  refine ⟨fun i rk getter => ⟨fun kind ok => ?_, fun other => ?_⟩, fun kind ok => ?_, fun other => ?_⟩
  · exact (exec_wordGetter getter s).trans (getWord_of_match free kind ok)
  · exact ⟨_, _, (exec_wordGetter getter s).trans (getWord_of_other free other)⟩
  · exact (whenFree_of_free free _).trans (if_pos ⟨kind, ok⟩)
  · exact ⟨_, _, (whenFree_of_free free _).trans (if_neg other)⟩

/-- Settles O16: every named bit is written with its cleared value, every other register of the block is left out of the update. -/
theorem ctlResetClears : Obligations.CtlResetClears := by
  intro s
  have cleared : ∀ p, (Pair.mk false false).get p = false := fun p => by cases p <;> rfl
  exact ⟨_, rfl, rfl, rfl, rfl, fun p => ⟨cleared p, cleared p⟩, rfl, rfl, rfl, rfl, rfl, rfl, rfl, rfl, fun _ => rfl, rfl⟩

end Sys2Proof.Machine
end

section
/-! The target of an `issue` (20_memory.md R63, R66): what the engine's accesses read and store, whichever of memory, window and scratch the
operand names. -/

namespace Sys2Proof.Machine

/-! ### Ranges of memory -/

/-- A range read in two parts. -/
theorem readBytes_add (m : Memory) (a i j : Nat) : m.readBytes a (i + j) = m.readBytes a i ++ m.readBytes (a + i) j := by
  simp [Memory.readBytes, List.range_add, Nat.add_assoc]

/-- A range is read alike in memories that agree on it. -/
theorem readBytes_congr {m m' : Memory} {a n : Nat} (h : ∀ x, a ≤ x → x < a + n → m'.readByte x = m.readByte x) :
    m'.readBytes a n = m.readBytes a n := by
  refine List.map_congr_left fun k hk => h _ (by omega) ?_
  have := List.mem_range.1 hk
  omega

/-- Bytes stored right behind a range extend it. -/
theorem readBytes_writeBytes_append (m : Memory) (a n : Nat) (bytes : List Byte) :
    (m.writeBytes (a + n) bytes).readBytes a (n + bytes.length) = m.readBytes a n ++ bytes := by
  have below : (m.writeBytes (a + n) bytes).readBytes a n = m.readBytes a n :=
    readBytes_congr fun x _ hx => readByte_writeBytes_outside m _ _ x (.inl hx)
  rw [readBytes_add, below, readBytes_writeBytes_same]

/-- All bytes of a transfer fit the engine's 32-bit cursor. -/
theorem transfer_bytes_lt (bc bs : BitVec 16) : bc.toNat * bs.toNat < 2 ^ 32 :=
  lt_of_le_of_lt (Nat.mul_le_mul (Nat.le_pred_of_lt bc.isLt) (Nat.le_pred_of_lt bs.isLt)) (by norm_num)

/-! ### The frame of a target -/

theorem State.SameOutsideTarget.of_same {buf : PrimBuf} {n : Nat} {s t : State} (mem : t.mem = s.mem) (scratch : t.seq.scratch = s.seq.scratch) :
    s.SameOutsideTarget buf n t := by
  cases buf
  case null | addr => exact ⟨scratch, fun a _ => by rw [mem]⟩
  case scratch => exact ⟨fun a => by rw [mem], fun a _ => by rw [scratch]⟩

theorem State.SameOutsideTarget.trans {buf : PrimBuf} {n : Nat} {s t u : State} (h : s.SameOutsideTarget buf n t) (cfg : t.cfg = s.cfg)
    (k : t.SameOutsideTarget buf n u) : s.SameOutsideTarget buf n u := by
  cases buf
  case null =>
    unfold State.SameOutsideTarget at k
    rw [cfg] at k
    exact ⟨k.1.trans h.1, fun a ha => (k.2 a ha).trans (h.2 a ha)⟩
  case addr => exact ⟨k.1.trans h.1, fun a ha => (k.2 a ha).trans (h.2 a ha)⟩
  case scratch => exact ⟨fun a => (k.1 a).trans (h.1 a), fun a ha => (k.2 a ha).trans (h.2 a ha)⟩

theorem State.SameOutsideTarget.mono {buf : PrimBuf} {m n : Nat} {s t : State} (h : s.SameOutsideTarget buf m t) (le : m ≤ n) :
    s.SameOutsideTarget buf n t := by
  cases buf
  case null | addr => exact ⟨h.1, fun a ha => h.2 a (by omega)⟩
  case scratch => exact ⟨h.1, fun a ha => h.2 a (by omega)⟩

/-- The bytes of a target are those of memory, scratch and parameters alone. -/
theorem targetBytes_congr {buf : PrimBuf} {s t : State} (mem : t.mem = s.mem) (scratch : t.seq.scratch = s.seq.scratch)
    (cfg : t.cfg = s.cfg) (o n : Nat) : t.targetBytes buf o n = s.targetBytes buf o n := by
  unfold State.targetBytes
  rw [mem, scratch, cfg]

/-! ### The engine's accesses -/

/-- An access of the engine leaves everything but its target alone. -/
theorem writeTarget_frame (bytes : List Byte) (s : State) :
    (writeTarget bytes s).de = s.de ∧ (writeTarget bytes s).hist = s.hist ∧ (writeTarget bytes s).ctl = s.ctl ∧
      (writeTarget bytes s).env = s.env ∧ (writeTarget bytes s).cfg = s.cfg := by
  unfold writeTarget
  split <;> exact ⟨rfl, rfl, rfl, rfl, rfl⟩

/-- What the engine hands to the card is the target's bytes at the cursor. -/
theorem readTarget_eq {buf : PrimBuf} {s : State} (path : s.de.path = pathOf buf s.cfg) :
    readTarget s = s.targetBytes buf s.de.cursor.toNat s.de.blockSize.toNat := by
  unfold readTarget
  cases buf <;> simp [path, pathOf, State.targetBytes]

/-- A block stored at the cursor follows the bytes before it. -/
theorem writeTarget_targetBytes {buf : PrimBuf} {s : State} (path : s.de.path = pathOf buf s.cfg) (bytes : List Byte) :
    (writeTarget bytes s).targetBytes buf 0 (s.de.cursor.toNat + bytes.length) =
      s.targetBytes buf 0 s.de.cursor.toNat ++ bytes := by
  unfold writeTarget
  cases buf
  case null | addr =>
    simp only [path, pathOf, State.targetBytes, Nat.add_zero]
    exact readBytes_writeBytes_append _ _ _ bytes
  case scratch =>
    have append := readBytes_writeBytes_append s.seq.scratch 0 s.de.cursor.toNat bytes
    simpa only [path, pathOf, State.targetBytes, Nat.zero_add] using append

/-- A block stored at the cursor changes no byte before it. -/
theorem writeTarget_targetBytes_below {buf : PrimBuf} {s : State} (path : s.de.path = pathOf buf s.cfg) (bytes : List Byte) :
    (writeTarget bytes s).targetBytes buf 0 s.de.cursor.toNat = s.targetBytes buf 0 s.de.cursor.toNat := by
  unfold writeTarget
  cases buf <;> simp only [path, pathOf, State.targetBytes]
  all_goals exact readBytes_congr fun x _ hx => readByte_writeBytes_outside _ _ _ x (.inl (by omega))

/-- A block stored at the cursor changes no byte past its own. -/
theorem writeTarget_sameOutside {buf : PrimBuf} {s : State} (path : s.de.path = pathOf buf s.cfg) (bytes : List Byte) {n : Nat}
    (fits : s.de.cursor.toNat + bytes.length ≤ n) : s.SameOutsideTarget buf n (writeTarget bytes s) := by
  unfold writeTarget
  cases buf <;> simp only [path, pathOf]
  case null | addr => exact ⟨rfl, fun a ha => readByte_writeBytes_outside _ _ _ a (by omega)⟩
  case scratch => exact ⟨fun _ => rfl, fun a ha => readByte_writeBytes_outside _ _ _ a (by omega)⟩

end Sys2Proof.Machine
end

section
/-! The data phase of an `issue` (40_controller_primitive.md R125): one block, then as many as the card moves. -/

namespace Sys2Proof.Machine

/-! ### One block -/

theorem nextBlock_of_script {s : State} {b : BlockAnswer} {rest : List BlockAnswer} (h : s.env.blocks = b :: rest) : s.nextBlock = b := by
  rw [State.nextBlock, h]

/-- A good block of a read is stored at the cursor. -/
theorem moveBlock_read_good {s : State} {b : List Byte} (dir : s.de.dir = .read) (next : s.nextBlock = .good b)
    (fits : b.length = s.de.blockSize.toNat) (bc : BitVec 16) :
    moveBlock bc s = (advanceEngine ((writeTarget b s.dropBlock.bump).log
      (.blockIn (bc.toNat - s.de.blocksLeft.toNat) b)), .ok) := by
  have whole : fitBlock s.dropBlock s.de.blockSize.toNat b = b := by rw [fitBlock, ← fits, List.take_left]
  simp only [moveBlock, next, dir, whole, if_true]

/-- An accepted block of a write is handed out from the cursor. -/
theorem moveBlock_write_good {s : State} {b : List Byte} (dir : s.de.dir ≠ .read) (next : s.nextBlock = .good b) (bc : BitVec 16) :
    moveBlock bc s = (advanceEngine (s.dropBlock.log
      (.blockOut (bc.toNat - s.de.blocksLeft.toNat) (readTarget s.dropBlock))), .ok) := by
  simp only [moveBlock, next, if_neg dir]

/-- A block that does not end well moves nothing (R128(b)); only a CRC error touches the target, of a read. -/
theorem moveBlock_bad {s : State} {bad : BlockAnswer} {st : TStatus} (next : s.nextBlock = bad)
    (h : (bad, st) ∈ [(BlockAnswer.crcError, TStatus.crc), (.timeout, .timeout), (.fail, .fail)]) (bc : BitVec 16) :
    (st = .crc ∧ s.de.dir = .read ∧
      moveBlock bc s = ((writeTarget (s.dropBlock.freeBytes s.de.blockSize.toNat) s.dropBlock).bump, .crc)) ∨
    ((st ≠ .crc ∨ s.de.dir ≠ .read) ∧ moveBlock bc s = (s.dropBlock, st)) := by
  simp only [List.mem_cons, Prod.mk.injEq, List.not_mem_nil, or_false] at h
  unfold moveBlock
  rw [next]
  obtain ⟨rfl, rfl⟩ | ⟨rfl, rfl⟩ | ⟨rfl, rfl⟩ := h
  · by_cases dir : s.de.dir = .read
    · exact .inl ⟨rfl, dir, by simp [spoilBlock, dir]⟩
    · exact .inr ⟨.inr dir, by simp [spoilBlock, dir]⟩
  · exact .inr ⟨.inl (by decide), rfl⟩
  · exact .inr ⟨.inl (by decide), rfl⟩

theorem ne_ok_of_badBlock {bad : BlockAnswer} {st : TStatus}
    (h : (bad, st) ∈ [(BlockAnswer.crcError, TStatus.crc), (.timeout, .timeout), (.fail, .fail)]) : st ≠ .ok := by
  rintro rfl
  simp at h

/-- A block that fails leaves history and engine as the blocks before it have left them. -/
theorem moveBlock_bad_frame {s : State} {bad : BlockAnswer} {st : TStatus} (next : s.nextBlock = bad)
    (h : (bad, st) ∈ [(BlockAnswer.crcError, TStatus.crc), (.timeout, .timeout), (.fail, .fail)]) (bc : BitVec 16) :
    (moveBlock bc s).1.hist = s.hist ∧ (moveBlock bc s).1.de = s.de ∧
      (st ≠ .crc → (moveBlock bc s).1.mem = s.mem ∧ (moveBlock bc s).1.seq = s.seq) := by
  rcases moveBlock_bad next h bc with ⟨crc, _, run⟩ | ⟨_, run⟩ <;> rw [run]
  · obtain ⟨de, hist, _⟩ := writeTarget_frame (s.dropBlock.freeBytes s.de.blockSize.toNat) s.dropBlock
    exact ⟨hist, de, fun other => absurd crc other⟩
  · exact ⟨rfl, rfl, fun _ => ⟨rfl, rfl⟩⟩

/-- Whatever becomes of a block, only its own bytes in the target can change. -/
theorem moveBlock_sameOutside {buf : PrimBuf} {s : State} (path : s.de.path = pathOf buf s.cfg) (bc : BitVec 16) {n : Nat}
    (fits : s.de.cursor.toNat + s.de.blockSize.toNat ≤ n) : s.SameOutsideTarget buf n (moveBlock bc s).1 := by
  rcases moveBlock_cases bc s with ⟨blk, len, _, h⟩ | ⟨_, h⟩ | ⟨_, h⟩ | ⟨st, _, h⟩ <;> rw [h]
  · exact writeTarget_sameOutside (s := s.dropBlock.bump) path blk (len ▸ fits)
  · exact .of_same rfl rfl
  · exact writeTarget_sameOutside (s := s.dropBlock) path _ (by simpa [State.freeBytes] using fits)
  · exact .of_same rfl rfl

/-- Whatever becomes of a block, the target's bytes before it stay. -/
theorem moveBlock_targetBytes_below {buf : PrimBuf} {s : State} (path : s.de.path = pathOf buf s.cfg) (bc : BitVec 16) :
    (moveBlock bc s).1.targetBytes buf 0 s.de.cursor.toNat = s.targetBytes buf 0 s.de.cursor.toNat := by
  rcases moveBlock_cases bc s with ⟨blk, _, _, h⟩ | ⟨_, h⟩ | ⟨_, h⟩ | ⟨st, _, h⟩ <;> rw [h]
  · exact writeTarget_targetBytes_below (s := s.dropBlock.bump) path blk
  · exact targetBytes_congr rfl rfl rfl _ _
  · exact writeTarget_targetBytes_below (s := s.dropBlock) path _
  · exact targetBytes_congr rfl rfl rfl _ _

/-- The engine's counters after a block that has moved. -/
theorem moveBlock_de {bc : BitVec 16} {s : State} (ok : (moveBlock bc s).2 = .ok) :
    (moveBlock bc s).1.de =
      { s.de with cursor := s.de.cursor + s.de.blockSize.setWidth 32, blocksLeft := s.de.blocksLeft - 1 } := by
  rcases moveBlock_cases bc s with ⟨blk, _, _, h⟩ | ⟨_, h⟩ | ⟨_, h⟩ | ⟨st, bad, h⟩ <;> rw [h] at ok ⊢
  · rw [advanceEngine_de, log_de, (writeTarget_frame blk _).1]
    rfl
  · rfl
  · cases ok
  · exact absurd ok bad

/-- Every block takes one answer of the card, and none writes a response word. -/
theorem moveBlock_frame (bc : BitVec 16) (s : State) :
    (moveBlock bc s).1.ctl = s.ctl ∧ (moveBlock bc s).1.env.blocks = s.env.blocks.tail ∧
      (moveBlock bc s).1.env.busy = s.env.busy := by
  have target : ∀ blk (t : State), (writeTarget blk t).ctl = t.ctl ∧ (writeTarget blk t).env = t.env := fun blk t => by
    obtain ⟨_, _, ctl, env, _⟩ := writeTarget_frame blk t
    exact ⟨ctl, env⟩
  rcases moveBlock_cases bc s with ⟨blk, _, _, h⟩ | ⟨_, h⟩ | ⟨_, h⟩ | ⟨st, _, h⟩ <;> rw [h]
  · simp [target]
  · exact ⟨rfl, rfl, rfl⟩
  · simp [target]
  · exact ⟨rfl, rfl, rfl⟩

/-- A good block of a read stands in the target behind the blocks before it, and is recorded. -/
theorem moveBlock_read_stores {buf : PrimBuf} {s : State} (path : s.de.path = pathOf buf s.cfg) {b : List Byte} (dir : s.de.dir = .read)
    (next : s.nextBlock = .good b) (fits : b.length = s.de.blockSize.toNat) (bc : BitVec 16) :
    (moveBlock bc s).1.hist = s.hist ++ [.blockIn (bc.toNat - s.de.blocksLeft.toNat) b] ∧
      (moveBlock bc s).1.targetBytes buf 0 (s.de.cursor.toNat + b.length) = s.targetBytes buf 0 s.de.cursor.toNat ++ b := by
  rw [moveBlock_read_good dir next fits]
  constructor
  · rw [advanceEngine_hist, log_hist, (writeTarget_frame b _).2.1]
    rfl
  · exact writeTarget_targetBytes (s := s.dropBlock.bump) path b

/-! ### The footprint of the phase -/

/-- Whatever the card answers, a data phase changes only the bytes of its target. -/
theorem moveBlocks_sameOutside {buf : PrimBuf} (bc : BitVec 16) (n : Nat) (s : State) (path : s.de.path = pathOf buf s.cfg) {total : Nat}
    (fits : s.de.cursor.toNat + n * s.de.blockSize.toNat ≤ total) (small : total < 2 ^ 32) :
    s.SameOutsideTarget buf total (moveBlocks bc n s).1 := by
  induction n generalizing s with
  | zero => exact .of_same rfl rfl
  | succ n ih =>
    rw [Nat.add_mul, one_mul] at fits
    have one : s.SameOutsideTarget buf total (moveBlock bc s).1 := moveBlock_sameOutside path bc (by omega)
    have kept := moveBlock_carried bc s
    simp only [moveBlocks]
    split
    · rename_i ok
      have cursor : (moveBlock bc s).1.de.cursor.toNat = s.de.cursor.toNat + s.de.blockSize.toNat := by
        have := s.de.blockSize.isLt
        rw [moveBlock_de ok, BitVec.toNat_add, BitVec.toNat_setWidth_of_le (by decide), Nat.mod_eq_of_lt (by omega)]
      refine one.trans kept.cfg (ih _ (by rw [kept.path, path, kept.cfg]) ?_)
      rw [cursor, kept.blockSize]
      omega
    · exact one

/-! ### The blocks that have moved -/

/-- The events of the blocks `moved` of a data phase that starts at `s`: a read delivers them, a write takes them from its target. -/
def blockEvents (buf : PrimBuf) (moved : List (List Byte)) (s : State) : List Event :=
  if s.de.dir = .read then moved.zipIdx.map fun x => Event.blockIn x.2 x.1
  else (List.range moved.length).map fun i =>
    Event.blockOut i (s.targetBytes buf (i * s.de.blockSize.toNat) s.de.blockSize.toNat)

/-- The data phase that starts at `s` has moved the blocks `moved`, and no other, when it comes to `t`. -/
structure Moved (bc : BitVec 16) (buf : PrimBuf) (moved : List (List Byte)) (s t : State) : Prop where
  carried : Carried s t
  blocksLeft : t.de.blocksLeft = BitVec.ofNat 16 (bc.toNat - moved.length)
  cursor : t.de.cursor = BitVec.ofNat 32 (moved.length * s.de.blockSize.toNat)
  resp : t.ctl.resp = s.ctl.resp
  hist : t.hist = s.hist ++ blockEvents buf moved s
  script : s.env.blocks = moved.map BlockAnswer.good ++ t.env.blocks
  busy : t.env.busy = s.env.busy
  stored : s.de.dir = .read → t.targetBytes buf 0 (moved.length * s.de.blockSize.toNat) = moved.flatten ∧
    s.SameOutsideTarget buf (moved.length * s.de.blockSize.toNat) t
  kept : s.de.dir ≠ .read → t.mem = s.mem ∧ t.seq = s.seq

theorem Moved.nil {bc : BitVec 16} (buf : PrimBuf) {s : State} (left : s.de.blocksLeft = bc) (cursor : s.de.cursor = 0) :
    Moved bc buf [] s s where
  carried := .rfl' s
  blocksLeft := by simp [left]
  cursor := by simp [cursor]
  resp := rfl
  hist := by simp [blockEvents]
  script := rfl
  busy := rfl
  stored := fun _ => ⟨by cases buf <;> simp [State.targetBytes, Memory.readBytes], .of_same rfl rfl⟩
  kept := fun _ => ⟨rfl, rfl⟩

theorem blockEvents_read_concat {buf : PrimBuf} {s : State} (dir : s.de.dir = .read) (moved : List (List Byte)) (b : List Byte) :
    blockEvents buf (moved ++ [b]) s = blockEvents buf moved s ++ [.blockIn moved.length b] := by
  simp [blockEvents, dir, List.zipIdx_append]

theorem blockEvents_write_concat {buf : PrimBuf} {s : State} (dir : s.de.dir ≠ .read) (moved : List (List Byte)) (b : List Byte) :
    blockEvents buf (moved ++ [b]) s = blockEvents buf moved s ++
      [.blockOut moved.length (s.targetBytes buf (moved.length * s.de.blockSize.toNat) s.de.blockSize.toNat)] := by
  simp [blockEvents, dir, List.range_succ]

section
variable {bc : BitVec 16} {buf : PrimBuf} {moved : List (List Byte)} {s t : State}

/-- The cursor does not wrap. -/
theorem Moved.cursor_toNat (h : Moved bc buf moved s t) (le : moved.length ≤ bc.toNat) :
    t.de.cursor.toNat = moved.length * s.de.blockSize.toNat := by
  rw [h.cursor, BitVec.toNat_ofNat, Nat.mod_eq_of_lt]
  exact lt_of_le_of_lt (Nat.mul_le_mul_right _ le) (transfer_bytes_lt bc s.de.blockSize)

/-- The number of the next block is that of the blocks before it. -/
theorem Moved.index (h : Moved bc buf moved s t) (le : moved.length ≤ bc.toNat) : bc.toNat - t.de.blocksLeft.toNat = moved.length := by
  have := bc.isLt
  rw [h.blocksLeft, BitVec.toNat_ofNat, Nat.mod_eq_of_lt (by omega)]
  omega

theorem Moved.path (h : Moved bc buf moved s t) (path : s.de.path = pathOf buf s.cfg) : t.de.path = pathOf buf t.cfg := by
  rw [h.carried.path, path, h.carried.cfg]

/-- One more block has moved: what is left to say is its event and what it does to the target. -/
theorem Moved.concat (h : Moved bc buf moved s t) {b : List Byte} {rest : List BlockAnswer} (next : t.env.blocks = .good b :: rest)
    (more : moved.length < bc.toNat) (ok : (moveBlock bc t).2 = .ok)
    (hist : (moveBlock bc t).1.hist = s.hist ++ blockEvents buf (moved ++ [b]) s)
    (stored : s.de.dir = .read →
      (moveBlock bc t).1.targetBytes buf 0 ((moved ++ [b]).length * s.de.blockSize.toNat) = (moved ++ [b]).flatten ∧
        s.SameOutsideTarget buf ((moved ++ [b]).length * s.de.blockSize.toNat) (moveBlock bc t).1)
    (kept : s.de.dir ≠ .read → (moveBlock bc t).1.mem = s.mem ∧ (moveBlock bc t).1.seq = s.seq) :
    Moved bc buf (moved ++ [b]) s (moveBlock bc t).1 := by
  obtain ⟨ctl, script, busy⟩ := moveBlock_frame bc t
  refine ⟨h.carried.trans (moveBlock_carried bc t), ?_, ?_, by rw [ctl, h.resp], hist, ?_, by rw [busy, h.busy], stored, kept⟩
  · have left : bc.toNat - moved.length = bc.toNat - (moved ++ [b]).length + 1 := by
      rw [List.length_append, List.length_singleton]
      omega
    rw [moveBlock_de ok, h.blocksLeft, left, BitVec.ofNat_add]
    exact add_sub_cancel_right _ _
  · rw [moveBlock_de ok, h.cursor, h.carried.blockSize, List.length_append, List.length_singleton, Nat.add_mul, one_mul,
      BitVec.ofNat_add, BitVec.ofNat_toNat]
  · rw [script, h.script, next]
    simp

/-- One more good block of a read. -/
theorem Moved.readBlock (h : Moved bc buf moved s t) (dir : s.de.dir = .read) (path : s.de.path = pathOf buf s.cfg)
    {b : List Byte} {rest : List BlockAnswer} (next : t.env.blocks = .good b :: rest) (len : b.length = s.de.blockSize.toNat)
    (more : moved.length < bc.toNat) :
    (moveBlock bc t).2 = .ok ∧ Moved bc buf (moved ++ [b]) s (moveBlock bc t).1 := by
  have fits : b.length = t.de.blockSize.toNat := len.trans (by rw [h.carried.blockSize])
  have good := nextBlock_of_script next
  have ok : (moveBlock bc t).2 = .ok := by rw [moveBlock_read_good (h.carried.dir.trans dir) good fits]
  obtain ⟨hist, target⟩ := moveBlock_read_stores (h.path path) (h.carried.dir.trans dir) good fits bc
  obtain ⟨bytes, outside⟩ := h.stored dir
  have extent : (moved ++ [b]).length * s.de.blockSize.toNat = t.de.cursor.toNat + b.length := by
    rw [List.length_append, List.length_singleton, Nat.add_mul, one_mul, h.cursor_toNat more.le, len]
  refine ⟨ok, h.concat next more ok ?_ (fun _ => ⟨?_, ?_⟩) (absurd dir)⟩
  · rw [hist, h.hist, h.index more.le, blockEvents_read_concat dir, List.append_assoc]
  · rw [extent, target, h.cursor_toNat more.le, bytes, List.flatten_append, List.flatten_singleton]
  · rw [extent]
    refine (outside.mono ?_).trans h.carried.cfg (moveBlock_sameOutside (h.path path) bc (by rw [fits]))
    rw [h.cursor_toNat more.le]
    omega

/-- One more accepted block of a write. -/
theorem Moved.writeBlock (h : Moved bc buf moved s t) (dir : s.de.dir ≠ .read) (path : s.de.path = pathOf buf s.cfg)
    {b : List Byte} {rest : List BlockAnswer} (next : t.env.blocks = .good b :: rest) (more : moved.length < bc.toNat) :
    (moveBlock bc t).2 = .ok ∧ Moved bc buf (moved ++ [b]) s (moveBlock bc t).1 := by
  have run := moveBlock_write_good (h.carried.dir ▸ dir) (nextBlock_of_script next) bc
  have ok : (moveBlock bc t).2 = .ok := by rw [run]
  obtain ⟨mem, seq⟩ := h.kept dir
  have bytes : readTarget t.dropBlock = s.targetBytes buf (moved.length * s.de.blockSize.toNat) s.de.blockSize.toNat := by
    rw [readTarget_eq (s := t.dropBlock) (h.path path), dropBlock_de, h.cursor_toNat more.le, h.carried.blockSize]
    exact targetBytes_congr mem (congrArg Sequencer.scratch seq) h.carried.cfg _ _
  refine ⟨ok, h.concat next more ok ?_ (fun k => absurd k dir) fun _ => ?_⟩ <;> rw [run]
  · rw [advanceEngine_hist, log_hist, dropBlock_hist, h.hist, h.index more.le, bytes, blockEvents_write_concat dir, List.append_assoc]
  · exact ⟨mem, seq⟩

/-- A data phase moves one good block after the other. -/
theorem Moved.blocks (h : Moved bc buf moved s t) (path : s.de.path = pathOf buf s.cfg) {blocks : List (List Byte)}
    {rest : List BlockAnswer} (script : t.env.blocks = blocks.map BlockAnswer.good ++ rest)
    (len : s.de.dir = .read → ∀ b ∈ blocks, b.length = s.de.blockSize.toNat) (fits : moved.length + blocks.length ≤ bc.toNat) (n : Nat) :
    ∃ u, moveBlocks bc (blocks.length + n) t = moveBlocks bc n u ∧ Moved bc buf (moved ++ blocks) s u := by
  induction blocks generalizing moved t with
  | nil => exact ⟨t, by simp, by simpa using h⟩
  | cons b blocks ih =>
    rw [List.length_cons] at fits
    have step : (moveBlock bc t).2 = .ok ∧ Moved bc buf (moved ++ [b]) s (moveBlock bc t).1 := by
      by_cases dir : s.de.dir = .read
      · exact h.readBlock dir path script (len dir b (by simp)) (by omega)
      · exact h.writeBlock dir path script (by omega)
    obtain ⟨ok, one⟩ := step
    have tail : (moveBlock bc t).1.env.blocks = blocks.map BlockAnswer.good ++ rest := by
      have all := h.script.symm.trans one.script
      simpa [script] using all.symm
    obtain ⟨u, run, all⟩ := ih one tail (fun dir c hc => len dir c (by simp [hc])) (by simp; omega)
    refine ⟨u, ?_, by simpa using all⟩
    rw [List.length_cons, Nat.add_right_comm, moveBlocks]
    simpa only [ok, if_true] using run

end

end Sys2Proof.Machine
end

section
/-! A whole `issue` with data (40_controller_primitive.md R120 to R129): the state in which its data phase starts, how it ends from there,
and what it leaves alone. -/

namespace Sys2Proof.Machine

/-! ### Around the data phase -/

/-- A good response is taken, whether the command's kind has one to hold or not (R124). -/
theorem receive_of_good (rk : RespKind) (r : Words4) (t : State) :
    (receive rk (.good r) t).2 = .ok ∧ holdsResponse rk r (receive rk (.good r) t).1.ctl.resp := by
  by_cases h : rk = .none
  · subst h
    exact ⟨rfl, trivial⟩
  · rw [receive_good h]
    exact ⟨rfl, setResp_holds rk r t⟩

/-- A transport failure of an awaited response (R128(a)). -/
theorem receive_of_failed {rk : RespKind} (h : rk ≠ .none) {a : CardAnswer} {st : TStatus}
    (k : (a, st) ∈ [(CardAnswer.silent, TStatus.timeout), (.badCrc, .crc), (.ctlFail, .fail)]) (t : State) :
    st ≠ .ok ∧ receive rk a t = (t, st) := by
  simp only [List.mem_cons, Prod.mk.injEq, List.not_mem_nil, or_false] at k
  obtain ⟨rfl, rfl⟩ | ⟨rfl, rfl⟩ | ⟨rfl, rfl⟩ := k
  · exact ⟨by decide, receive_silent h t⟩
  · exact ⟨by decide, receive_badCrc h t⟩
  · exact ⟨by decide, receive_ctlFail h t⟩

/-- The busy wait writes no controller register. -/
theorem waitPhase_ctl (cd : Descriptor) (r : State × TStatus) : (waitPhase cd r).1.ctl = r.1.ctl := by
  unfold waitPhase busyPhase
  split
  · split <;> rfl
  · rfl

/-- A card that releases its busy signal, where the command waits for it, lets the `issue` go well (R126). -/
theorem waitPhase_of_released {cd : Descriptor} {t : State}
    (h : cd.rk = .r1b ∨ cd.dir = .write → t.env.busy.head? = some .released) : (waitPhase cd (t, .ok)).2 = .ok := by
  unfold waitPhase busyPhase
  by_cases waits : cd.rk = .r1b ∨ cd.dir = .write
  · simp [waits, nextBusy_of_head (h waits)]
  · simp [waits]

/-- The state in which the data phase of an `issue` starts: the engine armed, the command sent, the card's response taken. -/
def responded (p : Port) (cd : Descriptor) (bc bs : BitVec 16) (buf : PrimBuf) (s : State) : State :=
  (responsePhase cd.rk (dispatched p cd bc bs buf s)).1

/-- The answer that the response phase takes is the next one of the script. -/
theorem responsePhase_dispatched (p : Port) (cd : Descriptor) (bc bs : BitVec 16) (buf : PrimBuf) (s : State) :
    responsePhase cd.rk (dispatched p cd bc bs buf s) =
      receive cd.rk s.nextAnswer (dispatched p cd bc bs buf s).dropAnswer := by
  obtain ⟨_, _, _, _, _, _, _, _, _, env⟩ := dispatched_carriedLike p cd bc bs buf s
  rw [responsePhase, State.nextAnswer, env]
  rfl

/-- What stands when the data phase starts, whatever the response. -/
structure DataStart (p : Port) (cd : Descriptor) (bc bs : BitVec 16) (buf : PrimBuf) (s u : State) : Prop where
  de : u.de = ⟨true, cd.dir, bc, bs, pathOf buf s.cfg, 0⟩
  hist : u.hist = s.hist ++ [.arm cd.dir bc bs (pathOf buf s.cfg), .cmd p cd]
  mem : u.mem = s.mem
  seq : u.seq = s.seq
  cfg : u.cfg = s.cfg
  blocks : u.env.blocks = s.env.blocks
  busy : u.env.busy = s.env.busy

theorem responded_dataStart {cd : Descriptor} (data : cd.dir ≠ .none) (p : Port) (bc bs : BitVec 16) (buf : PrimBuf) (s : State) :
    DataStart p cd bc bs buf s (responded p cd bc bs buf s) := by
  have armed : (dispatched p cd bc bs buf s).de = ⟨true, cd.dir, bc, bs, pathOf buf s.cfg, 0⟩ ∧
      (dispatched p cd bc bs buf s).hist = s.hist ++ [.arm cd.dir bc bs (pathOf buf s.cfg), .cmd p cd] := by
    simp [dispatched, armEngine, data]
  obtain ⟨_, seq, _, _, _, _, cfg, _, mem, env⟩ := dispatched_carriedLike p cd bc bs buf s
  obtain ⟨mem', seq', de'⟩ := receive_noStore cd.rk s.nextAnswer (dispatched p cd bc bs buf s).dropAnswer
  obtain ⟨hist', env'⟩ := receive_frame cd.rk s.nextAnswer (dispatched p cd bc bs buf s).dropAnswer
  have cfg' := (receive_carried cd.rk s.nextAnswer (dispatched p cd bc bs buf s).dropAnswer).cfg
  rw [responded, responsePhase_dispatched]
  refine ⟨de'.trans armed.1, hist'.trans armed.2, mem'.trans mem, seq'.trans seq, cfg'.trans cfg, ?_, ?_⟩
  all_goals rw [env', dropAnswer_env, env]

/-- How an `issue` ends whose data phase has come to `v`: with status `st`, its closing events, and the engine disarmed (R127). -/
structure EndsFrom (p : Port) (cd : Descriptor) (st : TStatus) (v s t : State) : Prop where
  after : s.AfterIssue p cd.rk st t
  hist : t.hist = v.hist ++ irqEvents s.cfg ++ [.resp st (specifiedWords cd.rk st v.ctl.resp)]
  de : t.de = { v.de with armed := false }
  seq : t.seq = v.seq
  mem : t.mem = v.mem
  cfg : t.cfg = v.cfg
  blocks : t.env.blocks = v.env.blocks
  resp : st = .ok → t.ctl.resp = v.ctl.resp

/-- The spec lemma of the phases after the data phase, which has come to `r`. -/
theorem issueRun_endsFrom {p : Port} {cd : Descriptor} {bc bs : BitVec 16} {buf : PrimBuf} {s : State} {r : State × TStatus} {st : TStatus}
    (data : dataPhase cd bc (responsePhase cd.rk (dispatched p cd bc bs buf s)) = r) (wait : (waitPhase cd r).2 = st) :
    EndsFrom p cd st r.1 s (issueRun p cd bc bs buf s) := by
  have run : issueRun p cd bc bs buf s = completeIssue cd.rk st (waitPhase cd r).1 := by
    rw [issueRun, answered, data, wait]
  obtain ⟨_, seq, _, _, _, cfg, _, mem, de⟩ := completeIssue_keeps cd.rk st (waitPhase cd r).1
  obtain ⟨_, _, _, _, _, _, _, status, _, resp⟩ := completeIssue_ctl cd.rk st (waitPhase cd r).1
  obtain ⟨waitHist, waitDe, waitEnv⟩ := waitPhase_frame cd r
  obtain ⟨waitMem, waitSeq⟩ := waitPhase_noStore cd r
  have sameCfg : (waitPhase cd r).1.cfg = s.cfg := by rw [← cfg, ← run, (issueRun_issued p cd bc bs buf s).cfg]
  have after := issueRun_afterIssue p cd bc bs buf s
  rw [run] at after ⊢
  rw [status] at after
  refine ⟨after, ?_, de.trans (by rw [waitDe]), seq.trans waitSeq, mem.trans waitMem,
    cfg.trans (waitPhase_carried cd r).cfg, ?_, fun ok => (resp ok).trans (by rw [waitPhase_ctl])⟩
  · rw [completeIssue_hist, sameCfg, waitHist, waitPhase_ctl]
  · rw [completeIssue_env, waitEnv]

theorem EndsFrom.targetBytes {p : Port} {cd : Descriptor} {st : TStatus} {v s t : State} (h : EndsFrom p cd st v s t) (buf : PrimBuf)
    (o n : Nat) : t.targetBytes buf o n = v.targetBytes buf o n :=
  targetBytes_congr h.mem (congrArg Sequencer.scratch h.seq) h.cfg o n

/-! ### The data phase after a good response -/

section
variable {p : Port} {cd : Descriptor} {bc bs : BitVec 16} {buf : PrimBuf} {s : State} {r : Words4} {blocks : List (List Byte)}

/-- The phase starts with no block moved. -/
theorem DataStart.moved {u : State} (h : DataStart p cd bc bs buf s u) : Moved bc buf [] u u :=
  .nil buf (by rw [h.de]) (by rw [h.de])

theorem DataStart.path {u : State} (h : DataStart p cd bc bs buf s u) : u.de.path = pathOf buf u.cfg := by
  rw [h.de, h.cfg]

theorem DataStart.targetBytes {u : State} (h : DataStart p cd bc bs buf s u) (o n : Nat) :
    u.targetBytes buf o n = s.targetBytes buf o n :=
  targetBytes_congr h.mem (congrArg Sequencer.scratch h.seq) h.cfg o n

/-- What the data phase changes of memory and scratch, from its start to the end of the call. -/
theorem DataStart.sameOutside {u v t : State} {st : TStatus} {n : Nat} (h : DataStart p cd bc bs buf s u) (carried : Carried u v)
    (k : u.SameOutsideTarget buf n v) (ends : EndsFrom p cd st v s t) : s.SameOutsideTarget buf n t := by
  have before : s.SameOutsideTarget buf n u := .of_same h.mem (congrArg Sequencer.scratch h.seq)
  exact (before.trans h.cfg k).trans (carried.cfg.trans h.cfg) (.of_same ends.mem (congrArg Sequencer.scratch ends.seq))

/-- The engine after the blocks that have moved. -/
theorem DataStart.de_of_moved {u v : State} (h : DataStart p cd bc bs buf s u) (moved : Moved bc buf blocks u v) :
    v.de = ⟨true, cd.dir, BitVec.ofNat 16 (bc.toNat - blocks.length), bs, pathOf buf s.cfg,
      BitVec.ofNat 32 (blocks.length * bs.toNat)⟩ := by
  have kept := moved.carried
  calc v.de = ⟨v.de.armed, v.de.dir, v.de.blocksLeft, v.de.blockSize, v.de.path, v.de.cursor⟩ := rfl
    _ = _ := by rw [kept.armed, kept.dir, moved.blocksLeft, kept.blockSize, kept.path, moved.cursor, h.de]

/-- The events of a read from the start of its data phase. -/
theorem DataStart.blockEvents_read {u : State} (h : DataStart p cd bc bs buf s u) (dir : cd.dir = .read) (moved : List (List Byte)) :
    blockEvents buf moved u = moved.zipIdx.map fun x => Event.blockIn x.2 x.1 := if_pos (by rw [h.de, dir])

/-- The events of a write from the start of its data phase. -/
theorem DataStart.blockEvents_write {u : State} (h : DataStart p cd bc bs buf s u) (dir : cd.dir = .write) (moved : List (List Byte)) :
    blockEvents buf moved u = (List.range moved.length).map fun i =>
      Event.blockOut i (s.targetBytes buf (i * bs.toNat) bs.toNat) := by
  simp [blockEvents, h.de, dir, h.targetBytes]

/-- After a good response the blocks of a command with data move. -/
theorem dataPhase_of_good (data : cd.dir ≠ .none) (good : s.nextAnswer = .good r) :
    dataPhase cd bc (responsePhase cd.rk (dispatched p cd bc bs buf s)) = moveBlocks bc bc.toNat (responded p cd bc bs buf s) ∧
      holdsResponse cd.rk r (responded p cd bc bs buf s).ctl.resp := by
  obtain ⟨ok, holds⟩ := receive_of_good cd.rk r (dispatched p cd bc bs buf s).dropAnswer
  unfold responded
  rw [responsePhase_dispatched, good]
  exact ⟨if_pos ⟨ok, data⟩, holds⟩

/-- A failed response ends the command where the data phase would start (R128(a)). -/
theorem dataPhase_of_failed {st : TStatus} (kind : cd.rk ≠ .none)
    (h : (s.nextAnswer, st) ∈ [(CardAnswer.silent, TStatus.timeout), (.badCrc, .crc), (.ctlFail, .fail)]) :
    st ≠ .ok ∧ dataPhase cd bc (responsePhase cd.rk (dispatched p cd bc bs buf s)) = (responded p cd bc bs buf s, st) := by
  obtain ⟨failed, run⟩ := receive_of_failed kind h (dispatched p cd bc bs buf s).dropAnswer
  unfold responded
  rw [responsePhase_dispatched, run]
  exact ⟨failed, if_neg fun k => failed k.1⟩

/-- The good blocks that the script begins with move, and the phase goes on behind them. -/
theorem moveBlocks_of_script {rest : List BlockAnswer} (data : cd.dir ≠ .none) (script : s.env.blocks = blocks.map BlockAnswer.good ++ rest)
    (len : cd.dir = .read → ∀ b ∈ blocks, b.length = bs.toNat) (fits : blocks.length ≤ bc.toNat) :
    ∃ v, moveBlocks bc bc.toNat (responded p cd bc bs buf s) = moveBlocks bc (bc.toNat - blocks.length) v ∧
      Moved bc buf blocks (responded p cd bc bs buf s) v := by
  have start := responded_dataStart data p bc bs buf s
  obtain ⟨v, run, moved⟩ := start.moved.blocks start.path (start.blocks.trans script)
    (by rw [start.de]; exact len) (by simpa using fits) (bc.toNat - blocks.length)
  rw [Nat.add_sub_cancel' fits] at run
  exact ⟨v, run, moved⟩

/-- A transfer whose response and blocks are all good (R125 to R127). -/
theorem issueRun_of_cardDelivers (data : cd.dir ≠ .none) (h : s.CardDelivers cd bc.toNat r blocks)
    (len : cd.dir = .read → ∀ b ∈ blocks, b.length = bs.toNat) :
    ∃ v, Moved bc buf blocks (responded p cd bc bs buf s) v ∧ holdsResponse cd.rk r v.ctl.resp ∧
      EndsFrom p cd .ok v s (issueRun p cd bc bs buf s) := by
  obtain ⟨good, count, ⟨rest, script⟩, released⟩ := h
  obtain ⟨phase, holds⟩ := dataPhase_of_good (p := p) (bc := bc) (bs := bs) (buf := buf) data good
  obtain ⟨v, run, moved⟩ := moveBlocks_of_script (p := p) (buf := buf) data script len count.le
  rw [count, Nat.sub_self] at run
  have busy := moved.busy.trans (responded_dataStart data p bc bs buf s).busy
  refine ⟨v, moved, by rwa [moved.resp], issueRun_endsFrom (r := (v, .ok)) (phase.trans run) (waitPhase_of_released ?_)⟩
  rwa [busy]

/-- A transfer that fails at the block behind `blocks`: the phase ends with that block (R128(b)). -/
theorem issueRun_of_badBlock {bad : BlockAnswer} {st : TStatus} {rest : List BlockAnswer} (data : cd.dir ≠ .none)
    (good : s.nextAnswer = .good r) (script : s.env.blocks = blocks.map BlockAnswer.good ++ bad :: rest) (more : blocks.length < bc.toNat)
    (fails : (bad, st) ∈ [(BlockAnswer.crcError, TStatus.crc), (.timeout, .timeout), (.fail, .fail)])
    (len : cd.dir = .read → ∀ b ∈ blocks, b.length = bs.toNat) :
    ∃ v, Moved bc buf blocks (responded p cd bc bs buf s) v ∧ v.nextBlock = bad ∧
      EndsFrom p cd st (moveBlock bc v).1 s (issueRun p cd bc bs buf s) := by
  obtain ⟨phase, _⟩ := dataPhase_of_good (p := p) (bc := bc) (bs := bs) (buf := buf) data good
  obtain ⟨v, run, moved⟩ := moveBlocks_of_script (p := p) (buf := buf) data script len more.le
  have next : v.env.blocks = bad :: rest := by
    have all := moved.script.symm.trans ((responded_dataStart data p bc bs buf s).blocks.trans script)
    simpa using all
  have failed := ne_ok_of_badBlock fails
  have status : (moveBlock bc v).2 = st := by
    rcases moveBlock_bad (nextBlock_of_script next) fails bc with ⟨rfl, _, k⟩ | ⟨_, k⟩ <;> rw [k]
  have last : moveBlocks bc (bc.toNat - blocks.length) v = moveBlock bc v := by
    obtain ⟨n, hn⟩ := Nat.exists_eq_succ_of_ne_zero (Nat.sub_ne_zero_of_lt more)
    rw [hn, moveBlocks]
    exact if_neg (by rwa [status])
  refine ⟨v, moved, nextBlock_of_script next, issueRun_endsFrom (phase.trans (run.trans last)) ?_⟩
  rw [waitPhase, if_neg (by rwa [status]), status]

/-! ### What a whole call changes -/

/-- Whatever the card answers, an `issue` changes of memory and scratch only the bytes of its target. -/
theorem issueRun_sameOutside (p : Port) (cd : Descriptor) (bc bs : BitVec 16) (buf : PrimBuf) (s : State) :
    s.SameOutsideTarget buf (bc.toNat * bs.toNat) (issueRun p cd bc bs buf s) := by
  by_cases dir : cd.dir = .read
  · have data : cd.dir ≠ .none := by
      rw [dir]
      decide
    have start := responded_dataStart data p bc bs buf s
    have phase : (responded p cd bc bs buf s).SameOutsideTarget buf (bc.toNat * bs.toNat)
        (dataPhase cd bc (responsePhase cd.rk (dispatched p cd bc bs buf s))).1 := by
      unfold dataPhase
      split
      · exact moveBlocks_sameOutside bc bc.toNat _ start.path (by simp [start.de]) (transfer_bytes_lt bc bs)
      · exact .of_same rfl rfl
    exact start.sameOutside (dataPhase_carried cd bc _) phase (issueRun_endsFrom rfl rfl)
  · obtain ⟨mem, seq⟩ := issueRun_noStore p cd bc bs buf s dir
    exact .of_same mem (congrArg Sequencer.scratch seq)

/-! ### Whole transfers -/

/-- A read whose blocks are all good (R122, R125, R127). -/
theorem issueRun_blocksRead (dir : cd.dir = .read) (delivers : s.CardDelivers cd bc.toNat r blocks)
    (len : ∀ b ∈ blocks, b.length = bs.toNat) : s.BlocksRead p cd bc bs buf r blocks (issueRun p cd bc bs buf s) := by
  have data : cd.dir ≠ .none := by simp [dir]
  have start := responded_dataStart data p bc bs buf s
  obtain ⟨v, moved, holds, ends⟩ := issueRun_of_cardDelivers (p := p) (buf := buf) data delivers fun _ => len
  obtain ⟨_, count, _⟩ := delivers
  have startDir : (responded p cd bc bs buf s).de.dir = .read := by rw [start.de, dir]
  obtain ⟨bytes, _⟩ := moved.stored startDir
  refine ⟨ends.after, by rwa [ends.resp rfl], ?_, ?_, (issueRun_issued p cd bc bs buf s).seq, ?_, issueRun_sameOutside p cd bc bs buf s⟩
  · rw [ends.hist, moved.hist, start.hist, start.blockEvents_read dir, specifiedWords_of_holds holds, dir]
  · rw [ends.de, start.de_of_moved moved, dir, count, Nat.sub_self]
    rfl
  · rw [ends.targetBytes, ← bytes, count, start.de]

/-- A write whose blocks are all accepted (R122, R125 to R127). -/
theorem issueRun_blocksWritten (dir : cd.dir = .write) (delivers : s.CardDelivers cd bc.toNat r blocks) :
    s.BlocksWritten p cd bc bs buf r (issueRun p cd bc bs buf s) := by
  have data : cd.dir ≠ .none := by simp [dir]
  have noRead : cd.dir ≠ .read := by simp [dir]
  have start := responded_dataStart data p bc bs buf s
  obtain ⟨v, moved, holds, ends⟩ := issueRun_of_cardDelivers (p := p) (buf := buf) data delivers (absurd · noRead)
  obtain ⟨_, count, _⟩ := delivers
  obtain ⟨mem, seq⟩ := issueRun_noStore p cd bc bs buf s noRead
  refine ⟨ends.after, by rwa [ends.resp rfl], ?_, ?_, seq, fun a => by rw [mem]⟩
  · rw [ends.hist, moved.hist, start.hist, start.blockEvents_write dir, specifiedWords_of_holds holds, dir, count]
  · rw [ends.de, start.de_of_moved moved, dir, count, Nat.sub_self]
    rfl

/-! ### Transfers that fail at a block (R128(b)) -/

section
variable {bad : BlockAnswer} {st : TStatus} {rest : List BlockAnswer}

/-- The history shows the blocks before the failing one, and the engine has counted them. -/
theorem issueRun_badBlock_trace (data : cd.dir ≠ .none) (good : s.nextAnswer = .good r)
    (script : s.env.blocks = blocks.map BlockAnswer.good ++ bad :: rest) (more : blocks.length < bc.toNat)
    (fails : (bad, st) ∈ [(BlockAnswer.crcError, TStatus.crc), (.timeout, .timeout), (.fail, .fail)])
    (len : cd.dir = .read → ∀ b ∈ blocks, b.length = bs.toNat) :
    s.AfterIssue p cd.rk st (issueRun p cd bc bs buf s) ∧
      (issueRun p cd bc bs buf s).hist = s.hist ++ [.arm cd.dir bc bs (pathOf buf s.cfg), .cmd p cd] ++
        blockEvents buf blocks (responded p cd bc bs buf s) ++ irqEvents s.cfg ++ [.resp st []] ∧
      (issueRun p cd bc bs buf s).de = ⟨false, cd.dir, BitVec.ofNat 16 (bc.toNat - blocks.length), bs, pathOf buf s.cfg,
        BitVec.ofNat 32 (blocks.length * bs.toNat)⟩ := by
  have start := responded_dataStart data p bc bs buf s
  obtain ⟨v, moved, next, ends⟩ := issueRun_of_badBlock (p := p) (buf := buf) data good script more fails len
  obtain ⟨hist, de, _⟩ := moveBlock_bad_frame next fails bc
  refine ⟨ends.after, ?_, ?_⟩
  · rw [ends.hist, hist, moved.hist, start.hist, specifiedWords_of_failed (ne_ok_of_badBlock fails)]
  · rw [ends.de, de, start.de_of_moved moved]

/-- The blocks of a read before the failing one stand in the target; only a CRC error touches the bytes of the failing one. -/
theorem issueRun_badBlock_target (dir : cd.dir = .read) (good : s.nextAnswer = .good r)
    (script : s.env.blocks = blocks.map BlockAnswer.good ++ bad :: rest) (more : blocks.length < bc.toNat)
    (fails : (bad, st) ∈ [(BlockAnswer.crcError, TStatus.crc), (.timeout, .timeout), (.fail, .fail)])
    (len : ∀ b ∈ blocks, b.length = bs.toNat) :
    (issueRun p cd bc bs buf s).targetBytes buf 0 (blocks.length * bs.toNat) = blocks.flatten ∧
      s.SameOutsideTarget buf ((blocks.length + 1) * bs.toNat) (issueRun p cd bc bs buf s) ∧
      (st ≠ .crc → s.SameOutsideTarget buf (blocks.length * bs.toNat) (issueRun p cd bc bs buf s)) := by
  have data : cd.dir ≠ .none := by simp [dir]
  have start := responded_dataStart data p bc bs buf s
  obtain ⟨v, moved, next, ends⟩ := issueRun_of_badBlock (p := p) (buf := buf) data good script more fails fun _ => len
  have size : (responded p cd bc bs buf s).de.blockSize = bs := by rw [start.de]
  obtain ⟨bytes, outside⟩ := moved.stored (by rw [start.de, dir])
  have cursor := moved.cursor_toNat more.le
  rw [size] at bytes outside cursor
  have path := moved.path start.path
  have carried := moved.carried.trans (moveBlock_carried bc v)
  refine ⟨?_, start.sameOutside carried ?_ ends, fun noCrc => start.sameOutside carried ?_ ends⟩
  · rw [ends.targetBytes, ← cursor, moveBlock_targetBytes_below path, cursor, bytes]
  · rw [Nat.add_mul, one_mul]
    refine (outside.mono (Nat.le_add_right _ _)).trans moved.carried.cfg (moveBlock_sameOutside path bc ?_)
    rw [cursor, moved.carried.blockSize, size]
  · obtain ⟨_, _, unspoilt⟩ := moveBlock_bad_frame next fails bc
    obtain ⟨mem, seq⟩ := unspoilt noCrc
    exact outside.trans moved.carried.cfg (.of_same mem (congrArg Sequencer.scratch seq))

end

/-! ### The presented operation -/

/-- An `issue` that is presented returns status and response registers (30_encoding.md R88). -/
theorem exec_issue_of_accepted {p : Port} {cd : Descriptor} {bc bs : BitVec 16} {buf : PrimBuf} {s : State}
    (h : issueRefusal p cd bc bs buf s = none) :
    exec (.issue p cd bc bs buf) s = .next { issueRun p cd bc bs buf s with
      prim := .issued (issueRun p cd bc bs buf s).ctl.tstatus (issueRun p cd bc bs buf s).ctl.resp } := by
  change andThen (issue p cd bc bs buf s) _ = _
  rw [issue, h]
  rfl

theorem exec_issue_of_refused {p : Port} {cd : Descriptor} {bc bs : BitVec 16} {buf : PrimBuf} {s : State} {e : Refusal}
    (h : issueRefusal p cd bc bs buf s = some e) : exec (.issue p cd bc bs buf) s = .refused e := by
  change andThen (issue p cd bc bs buf s) _ = _
  rw [issue, h]
  rfl

end

end Sys2Proof.Machine
end

section
/-! The statements about `issue` (40_controller_primitive.md R120 to R129). -/

namespace Sys2Proof.Machine

/-! ### Preconditions -/

theorem issueRefusal_ready {p : Port} {bc bs : BitVec 16} {buf : PrimBuf} {s : State} (ready : s.ready p = true) (cd : Descriptor) :
    issueRefusal p cd bc bs buf s =
      if cd.dir = .none then unusedBufferRefusal buf s.cfg
      else if bc = 0 ∨ bs = 0 then some .emptyTransfer
      else bufferRefusal buf (bc.toNat * bs.toNat) s.cfg := by
  simp only [State.ready, Bool.and_eq_true, Bool.not_eq_true'] at ready
  obtain ⟨⟨free, isOpen⟩, programmed⟩ := ready
  simp [issueRefusal, free, isOpen, programmed]

theorem rangeRefusal_misaligned {a : Nat} (h : a % 4 ≠ 0) (n : Nat) (cfg : Config) :
    rangeRefusal a n cfg = some .bufferMisaligned := if_pos h

theorem rangeRefusal_range {a n : Nat} {cfg : Config} (aligned : a % 4 = 0) (h : cfg.memBytes ≤ a ∨ cfg.memBytes < a + n) :
    rangeRefusal a n cfg = some .bufferRange := by
  rw [rangeRefusal, if_neg (by simpa using aligned), if_pos h]

/-- A buffer operand that names host memory is held to the contract of its window, the null buffer to that of the one at `DMA_BASE`. -/
theorem bufferRefusal_window {buf : PrimBuf} {a : Nat} {cfg : Config} (h : buf = .addr a ∨ (buf = .null ∧ a = cfg.dmaBase)) (n : Nat) :
    bufferRefusal buf n cfg = rangeRefusal a n cfg := by
  obtain rfl | ⟨rfl, rfl⟩ := h <;> rfl

/-- Settles O17: each precondition by its branch of `issueRefusal`. -/
theorem issueContracts : Obligations.IssueContracts := by
  intro p cd bc bs buf s
  refine ⟨fun busy => ?_, fun free closed => ?_, fun free isOpen unset => ?_, fun ready noData a ha => ?_, fun ready data => ⟨?_, ?_⟩⟩
  · exact exec_issue_of_refused (by simp [issueRefusal, busy])
  · exact exec_issue_of_refused (by simp [issueRefusal, free, closed])
  · have unprogrammed : s.programmed p = false := by
      rw [State.programmed, Bool.and_eq_false_iff]
      exact unset
    exact exec_issue_of_refused (by simp [issueRefusal, free, isOpen, unprogrammed])
  · have window : issueRefusal p cd bc bs buf s = rangeRefusal a 0 s.cfg := by
      rw [issueRefusal_ready ready, if_pos noData, ha]
      rfl
    exact ⟨fun odd => exec_issue_of_refused (window.trans (rangeRefusal_misaligned odd 0 _)),
      fun aligned past => exec_issue_of_refused (window.trans (rangeRefusal_range aligned (.inl past)))⟩
  · intro empty
    exact exec_issue_of_refused (by rw [issueRefusal_ready ready, if_neg data, if_pos empty])
  · intro count size
    have target : issueRefusal p cd bc bs buf s = bufferRefusal buf (bc.toNat * bs.toNat) s.cfg := by
      rw [issueRefusal_ready ready, if_neg data, if_neg (not_or.2 ⟨count, size⟩)]
    refine ⟨fun a ha => ?_, fun scratch long => exec_issue_of_refused (target.trans ?_)⟩
    · rw [bufferRefusal_window ha] at target
      exact ⟨fun odd => exec_issue_of_refused (target.trans (rangeRefusal_misaligned odd _ _)),
        fun aligned past => exec_issue_of_refused (target.trans (rangeRefusal_range aligned (.inr past)))⟩
    · rw [scratch]
      exact if_neg (Nat.not_le.2 long)

/-! ### Any command -/

/-- Settles O18: the call is not refused, and its frame is that of every `issue` with the bytes of its target. -/
theorem issueReturns : Obligations.IssueReturns := by
  intro p cd bc bs buf s ready unused target
  have accepted : issueRefusal p cd bc bs buf s = none := by
    by_cases data : cd.dir = .none
    · exact issueRefusal_noData p cd bc bs buf s data ready (unused data)
    · obtain ⟨count, size, exists_target⟩ := target data
      exact issueRefusal_data p cd bc bs buf s ready count size exists_target
  have run := exec_issue_of_accepted accepted
  have after := issueRun_afterIssue p cd bc bs buf s
  have scratchOnly := (issueRun_issued p cd bc bs buf s).seq
  have outside := issueRun_sameOutside p cd bc bs buf s
  have noStore := issueRun_noStore p cd bc bs buf s
  generalize issueRun p cd bc bs buf s = t at run after scratchOnly outside noStore
  refine ⟨_, _, run, after, rfl, scratchOnly, fun noRead => ?_, fun inMemory => ?_, ?_, ?_, ?_⟩
  · obtain ⟨mem, seq⟩ := noStore noRead
    exact ⟨congrArg Sequencer.scratch seq, fun a => congrArg (·.readByte a) mem⟩
  · cases buf
    case null | addr => exact outside.1
    case scratch => exact absurd rfl inMemory
  · rintro rfl
    exact outside.1
  · rintro a rfl
    exact outside.2
  · rintro rfl
    exact outside.2

/-- Settles O19: what a command without data sends, whatever its unused operands say. -/
theorem issueWithoutData : Obligations.IssueWithoutData := by
  intro p cd bc bs buf s ready noData unused
  obtain ⟨words, sent⟩ := issueRun_commandSent noData p bc bs buf s
  have run := exec_issue_of_accepted (issueRefusal_noData p cd bc bs buf s noData ready unused)
  have prim := (issueRun_issued p cd bc bs buf s).prim
  have noStore := issueRun_noStore p cd bc bs buf s (dir_ne_read noData)
  generalize issueRun p cd bc bs buf s = t at sent run prim noStore
  refine ⟨_, _, words, run, ?_, rfl, noStore.2⟩
  rw [← prim]
  exact sent

/-! ### Commands with data -/

/-- Settles O20: all blocks have moved, none is left. -/
theorem issueReadsBlocks : Obligations.IssueReadsBlocks := by
  intro p cd bc bs buf s r blocks ready dir count size target delivers len
  have run := exec_issue_of_accepted (issueRefusal_data p cd bc bs buf s ready count size target)
  have read : s.BlocksRead p cd bc bs buf r blocks (issueRun p cd bc bs buf s) := issueRun_blocksRead dir delivers len
  generalize issueRun p cd bc bs buf s = t at run read
  have ⟨⟨_, status, _⟩, _⟩ := read
  exact ⟨_, run, read, by rw [status]⟩

/-- Settles O21: as for a read, but the target is only read. -/
theorem issueWritesBlocks : Obligations.IssueWritesBlocks := by
  intro p cd bc bs buf s r blocks ready dir count size target delivers
  have run := exec_issue_of_accepted (issueRefusal_data p cd bc bs buf s ready count size target)
  have written : s.BlocksWritten p cd bc bs buf r (issueRun p cd bc bs buf s) := issueRun_blocksWritten dir delivers
  generalize issueRun p cd bc bs buf s = t at run written
  have ⟨⟨_, status, _⟩, _⟩ := written
  exact ⟨_, run, written, by rw [status]⟩

/-- Settles O22: the call ends from the state in which its data phase would have started. -/
theorem failedResponseMovesNothing : Obligations.FailedResponseMovesNothing := by
  intro p cd bc bs buf s ready data count size target kind st fails
  have run := exec_issue_of_accepted (issueRefusal_data p cd bc bs buf s ready count size target)
  have start := responded_dataStart data p bc bs buf s
  obtain ⟨failed, phase⟩ := dataPhase_of_failed (p := p) (bc := bc) (bs := bs) (buf := buf) kind fails
  have ends := issueRun_endsFrom (st := st) phase (congrArg Prod.snd (waitPhase_of_failed cd _ failed))
  generalize issueRun p cd bc bs buf s = t at run ends
  refine ⟨_, run, ends.after, ?_, ?_,
    ends.seq.trans start.seq, fun a => ?_, ends.blocks.trans start.blocks⟩
  · exact ends.hist.trans (by rw [start.hist, specifiedWords_of_failed failed])
  · exact ends.de.trans (by rw [start.de])
  · exact congrArg (·.readByte a) (ends.mem.trans start.mem)

/-- Settles O23: the blocks before the failing one have moved, to the target of a read or from that of a write. -/
theorem failedBlockStopsTheTransfer : Obligations.FailedBlockStopsTheTransfer := by
  intro p cd bc bs buf s r blocks bad st rest ready count size target good more script fails
  have run := exec_issue_of_accepted (issueRefusal_data p cd bc bs buf s ready count size target)
  have scratchOnly := (issueRun_issued p cd bc bs buf s).seq
  have noStore := issueRun_noStore p cd bc bs buf s
  refine ⟨fun dir len => ?_, fun dir => ?_⟩
  · have data : cd.dir ≠ .none := by simp [dir]
    obtain ⟨after, hist, de⟩ := issueRun_badBlock_trace (p := p) (buf := buf) data good script more fails fun _ => len
    have stored := issueRun_badBlock_target (p := p) (buf := buf) dir good script more fails len
    rw [(responded_dataStart data p bc bs buf s).blockEvents_read dir, dir] at hist
    rw [dir] at de
    generalize issueRun p cd bc bs buf s = t at run scratchOnly after hist de stored
    exact ⟨_, run, after, hist, de, scratchOnly, stored⟩
  · have data : cd.dir ≠ .none := by simp [dir]
    have noRead : cd.dir ≠ .read := by simp [dir]
    obtain ⟨after, hist, de⟩ := issueRun_badBlock_trace (p := p) (bs := bs) (buf := buf) data good script more fails (absurd · noRead)
    obtain ⟨mem, seq⟩ := noStore noRead
    rw [(responded_dataStart data p bc bs buf s).blockEvents_write dir, dir] at hist
    rw [dir] at de
    generalize issueRun p cd bc bs buf s = t at run after hist de mem seq
    exact ⟨_, run, after, hist, de, seq, fun a => congrArg (·.readByte a) mem⟩

end Sys2Proof.Machine
end

section
/-! The statements about the card commands (41_card_commands.md): each presented command is the `issue` call of its row, and at most a part
of a good response is kept after it. -/

namespace Sys2Proof.Machine

/-! ### The rows -/

/-- A plain command sends its row and nothing else. -/
theorem exec_plainCommand {i : Instr} {cd : Descriptor} (row : plainCommand i = some cd) (s : State) :
    cd.dir = .none ∧ exec i s = issueCommand s.seq.cur cd s := by
  cases i
  case goIdleState | sendIfCond | appCmd | selectCard | switch | sendStatus | setBlockCount | stopTransmission =>
    obtain rfl := Option.some.inj row
    exact ⟨rfl, rfl⟩
  all_goals exact nomatch row

/-- What the row of a data command says of its blocks: they lie in the scratch or in the request's buffer, and those of a write have 512
bytes. -/
structure DataRow (cd : Descriptor) (bs : BitVec 16) (buf : PrimBuf) (s : State) : Prop where
  target : buf = .scratch ∨ buf = primBuf s.seq.op.buf
  size : cd.dir = .write → bs = 512

section
variable {i : Instr} {cd : Descriptor} {bc bs : BitVec 16} {buf : PrimBuf} {s : State}

/-- A data command is the `issue` call of its row. -/
theorem exec_dataCommandOf (row : dataCommandOf s i = some (cd, bc, bs, buf)) :
    exec i s = issue s.seq.cur cd bc bs buf s ∧ DataRow cd bs buf s := by
  cases i
  case sendExtCsd | switchFunc =>
    cases row
    exact ⟨rfl, .inl rfl, nofun⟩
  case readSingleBlock | readMultipleBlock | writeBlock | writeMultipleBlock =>
    cases row
    exact ⟨rfl, .inr rfl, fun _ => rfl⟩
  all_goals exact nomatch row

/-- A data command whose preconditions hold runs its `issue`. -/
theorem exec_dataCommandOf_of_ready (row : dataCommandOf s i = some (cd, bc, bs, buf)) (ready : s.ready s.seq.cur = true) (count : bc ≠ 0)
    (size : bs ≠ 0) (exists_target : bufferRefusal buf (bc.toNat * bs.toNat) s.cfg = none) :
    exec i s = .next (issueRun s.seq.cur cd bc bs buf s) := by
  obtain ⟨call, _⟩ := exec_dataCommandOf row
  rw [call, issue, issueRefusal_data s.seq.cur cd bc bs buf s ready count size exists_target]

end

/-! ### The footprint of a target -/

section
variable {buf : PrimBuf} {n : Nat} {s t : State}

/-- Only a target in the scratch changes the scratch. -/
theorem State.SameOutsideTarget.scratch_eq (h : s.SameOutsideTarget buf n t) (inMemory : buf ≠ .scratch) :
    t.seq.scratch = s.seq.scratch := by
  cases buf with
  | null => exact h.1
  | addr a => exact h.1
  | scratch => exact absurd rfl inMemory

/-- A target in the scratch or in the buffer `b` leaves memory outside that buffer alone. -/
theorem State.SameOutsideTarget.sameMemoryOutside {b : HostBuf} (h : s.SameOutsideTarget buf n t)
    (target : buf = .scratch ∨ buf = primBuf b) : s.SameMemoryOutside (bufferBase b s.cfg) n t := by
  obtain rfl | rfl := target
  · exact fun a _ => h.1 a
  · cases b with
    | null => exact h.2
    | addr a => exact h.2

end

/-! ### What is kept of a response -/

/-- On T_OK a part of the response is kept, and nothing else changes. -/
theorem onOk_keep (keep : Words4 → Sequencer → Sequencer) (t : State) :
    onOk t (fun t => { t with seq := keep t.ctl.resp t.seq }) =
      .next { t with seq := if t.ctl.tstatus = .ok then keep t.ctl.resp t.seq else t.seq } := by
  unfold onOk
  split <;> rfl

/-- A command without data on a ready port, after which the sequencer keeps `keep` of a good response. -/
theorem issueCommand_onOk_of_ready {cd : Descriptor} {s : State} (noData : cd.dir = .none) (ready : s.ready s.seq.cur = true)
    (keep : Words4 → Sequencer → Sequencer) :
    ∃ t st words,
      andThen (issueCommand s.seq.cur cd s) (onOk · fun t => { t with seq := keep t.ctl.resp t.seq }) = .next t ∧
      s.CommandSent s.seq.cur cd st words t ∧ t.seq = if st = .ok then keep t.ctl.resp s.seq else s.seq := by
  obtain ⟨u, st, words, run, sent, status, seq⟩ := issueCommand_sent_of_ready noData ready
  refine ⟨{ u with seq := if st = .ok then keep u.ctl.resp s.seq else s.seq }, st, words, ?_, sent.withSeq _, rfl⟩
  rw [run, ← status, ← seq]
  exact onOk_keep keep u

/-- The operand of SEND_OP_COND always asks for high capacity (30_encoding.md R95, R96). -/
theorem cdSendOpCond_eq (vdd : BitVec 16) : cdSendOpCond vdd = ⟨.r3, .none, 1, 0x40#8 ++ vdd ++ 0#8⟩ := rfl

/-! ### The statements -/

/-- Settles O25: each row is one command without data on the sequencer's port. -/
theorem plainCommands : Obligations.PlainCommands := by
  intro i cd s row ready
  obtain ⟨noData, call⟩ := exec_plainCommand row s
  obtain ⟨t, st, words, run, sent, _, seq⟩ := issueCommand_sent_of_ready noData ready
  exact ⟨t, st, words, call.trans run, sent, seq⟩

/-- Settles O26: each command by the part of the response, or of its operand, that it keeps. -/
theorem capturingCommands : Obligations.CapturingCommands := by
  intro s ready
  refine ⟨fun vdd => ?_, ?_, ?_, fun rca => ?_, fun rca => ?_⟩
  · rw [← cdSendOpCond_eq]
    exact issueCommand_onOk_of_ready rfl ready fun r q => { q with tmp := { q.tmp with ocr := r.w0 } }
  · exact issueCommand_onOk_of_ready rfl ready fun r q => { q with w := { q.w with cid := parseCid r } }
  · exact issueCommand_onOk_of_ready rfl ready fun r q => { q with w := { q.w with rca := parseR6 r.w0 } }
  · exact issueCommand_onOk_of_ready rfl ready fun _ q => { q with w := { q.w with rca := rca } }
  · exact issueCommand_onOk_of_ready rfl ready fun r q => { q with tmp := { q.tmp with csd := r.toBits } }

/-- Settles O28: a whole read or write of the row's blocks. -/
theorem dataCommandResults : Obligations.DataCommandResults := by
  refine ⟨fun i cd bc bs buf s r blocks row dir ready count size exists_target delivers len => ?_,
    fun i cd bc bs buf s r blocks row dir ready count exists_target delivers => ?_⟩
  · exact ⟨_, exec_dataCommandOf_of_ready row ready count size exists_target, issueRun_blocksRead dir delivers len,
      (issueRun_issued s.seq.cur cd bc bs buf s).prim⟩
  · obtain ⟨_, rowSays⟩ := exec_dataCommandOf row
    have size : bs ≠ 0 := by
      rw [rowSays.size dir]
      decide
    exact ⟨_, exec_dataCommandOf_of_ready row ready count size exists_target, issueRun_blocksWritten dir delivers,
      (issueRun_issued s.seq.cur cd bc bs buf s).prim⟩

/-- Settles O29: an `issue` changes of memory and scratch at most its target, which the row names. -/
theorem dataCommandsReturn : Obligations.DataCommandsReturn := by
  intro i cd bc bs buf s row ready count size exists_target
  obtain ⟨_, rowSays⟩ := exec_dataCommandOf row
  have run := exec_dataCommandOf_of_ready row ready count size exists_target
  have issued := issueRun_issued s.seq.cur cd bc bs buf s
  have outside := issueRun_sameOutside s.seq.cur cd bc bs buf s
  refine ⟨_, _, run, issueRun_afterIssue s.seq.cur cd bc bs buf s, issued.prim, issued.seq, ?_, outside.scratch_eq,
    outside.sameMemoryOutside rowSays.target⟩
  rintro (dir | rfl)
  · obtain ⟨mem, _⟩ := issueRun_noStore s.seq.cur cd bc bs buf s (by simp [dir])
    exact fun a => by rw [mem]
  · exact outside.1

end Sys2Proof.Machine
end

section
/-! The statements about the response parser (42_response_parser.md): the card status word, the CID, and the two capacities of a CSD with
the one that `init` stores. -/

namespace Sys2Proof.Machine

/-! ### Card status (R177, R191) -/

theorem statusOk_iff (s : Word) : statusOk s = true ↔ (parseR1 s).err = 0 ∧ (parseR1 s).state = 4 := by
  simp [statusOk, stateTran]

theorem switchOk_iff (s : Word) : switchOk s = true ↔ statusOk s = true ∧ (parseR1 s).swerr = false := by
  simp [switchOk]

/-- The positions of the eight error bits (R177). -/
def errorBits : List Nat := [19, 20, 21, 22, 23, 26, 29, 30]

theorem cardStatusErrorMask_getLsbD (k : Nat) : cardStatusErrorMask.getLsbD k = decide (k ∈ errorBits) := by
  by_cases inWord : k < 32
  · revert k
    decide
  · rw [BitVec.getLsbD_of_ge _ _ (not_lt.1 inWord), eq_comm, decide_eq_false_iff_not]
    simp [errorBits]
    omega

/-- A bit of the error field is the status bit at a position that R177 lists, and 0 anywhere else. -/
theorem parseR1_err_getLsbD (s : Word) (k : Nat) :
    (parseR1 s).err.getLsbD k = (s.getLsbD k && decide (k ∈ errorBits)) := by
  rw [← cardStatusErrorMask_getLsbD]
  exact BitVec.getLsbD_and

theorem parseR1_err_eq_zero_iff (s : Word) :
    (parseR1 s).err = 0 ↔ ∀ k ∈ errorBits, s.getLsbD k = false := by
  constructor
  · intro err k listed
    have bit := parseR1_err_getLsbD s k
    simpa [err, listed] using bit.symm
  · intro clear
    refine BitVec.eq_of_getLsbD_eq fun k _ => ?_
    rw [parseR1_err_getLsbD]
    by_cases listed : k ∈ errorBits
    · simp [clear k listed]
    · simp [listed]

/-! ### CID (R183) -/

theorem toNat_append_eq_add {m n : Nat} (x : BitVec m) (y : BitVec n) : (x ++ y).toNat = x.toNat * 2 ^ n + y.toNat := by
  rw [BitVec.toNat_append, ← Nat.shiftLeft_add_eq_or_of_lt y.isLt, Nat.shiftLeft_eq]

theorem toBits_toNat (r : Words4) :
    r.toBits.toNat = ((r.w3.toNat * 2 ^ 32 + r.w2.toNat) * 2 ^ 32 + r.w1.toNat) * 2 ^ 32 + r.w0.toNat := by
  simp only [Words4.toBits, toNat_append_eq_add]

/-- The low byte of the word above comes in at the top. -/
theorem shiftedWord_eq_append (lo hi : Word) :
    (lo >>> 8) ||| ((hi <<< 24) &&& 0xFF000000) = hi.extractLsb' 0 8 ++ lo.extractLsb' 8 24 := by
  refine BitVec.eq_of_getLsbD_eq fun k inWord => ?_
  have topByte : ∀ k < 32, (0xFF000000 : Word).getLsbD k = decide (24 ≤ k) := by decide
  rw [BitVec.getLsbD_or, BitVec.getLsbD_and, topByte k inWord, BitVec.getLsbD_append]
  by_cases low : k < 24
  · simp [low, inWord, -BitVec.getLsbD_eq_getElem]
  · have inByte : k - 24 < 8 := by omega
    have shiftedOut : 32 ≤ 8 + k := by omega
    simp [low, not_lt.1 low, inWord, inByte, shiftedOut, -BitVec.getLsbD_eq_getElem]

theorem shiftedWord_toNat (lo hi : Word) :
    ((lo >>> 8) ||| ((hi <<< 24) &&& 0xFF000000)).toNat = hi.toNat % 2 ^ 8 * 2 ^ 24 + lo.toNat / 2 ^ 8 := by
  have := lo.isLt
  rw [shiftedWord_eq_append, toNat_append_eq_add, BitVec.extractLsb'_toNat, BitVec.extractLsb'_toNat, Nat.shiftRight_zero,
    Nat.shiftRight_eq_div_pow, Nat.mod_eq_of_lt (a := lo.toNat / 2 ^ 8) (by omega)]

theorem parseCid_toBits (r : Words4) : (parseCid r).toBits = r.toBits >>> 8 := by
  apply BitVec.eq_of_toNat_eq
  rw [BitVec.toNat_ushiftRight, Nat.shiftRight_eq_div_pow, toBits_toNat, toBits_toNat]
  simp only [parseCid, shiftedWord_toNat, BitVec.toNat_ushiftRight, Nat.shiftRight_eq_div_pow]
  omega

/-! ### The capacities of a CSD (R185, R186) -/

/-- The capacity in bytes that the version 1 fields of a CSD give (R185). -/
def bytesV1 (f : Csd) : Nat :=
  (f.cSizeV1.toNat + 1) * 2 ^ (f.cSizeMult.toNat + 2) * 2 ^ f.readBlLen.toNat

theorem sectorsV1_eq (f : Csd) : sectorsV1 f = bytesV1 f / 512 := rfl

/-- Each factor is largest when its field is all ones. -/
theorem bytesV1_le (f : Csd) : bytesV1 f ≤ 2 ^ 36 :=
  calc bytesV1 f ≤ 2 ^ 12 * 2 ^ 9 * 2 ^ 15 := by
        have size := f.cSizeV1.isLt
        have mult : f.cSizeMult.toNat + 2 ≤ 9 := by have := f.cSizeMult.isLt; omega
        have len : f.readBlLen.toNat ≤ 15 := by have := f.readBlLen.isLt; omega
        unfold bytesV1
        gcongr <;> omega
    _ = 2 ^ 36 := by norm_num

/-- From an exponent of 9 on, the capacity is a whole number of sectors. -/
theorem sector_dvd_bytesV1 {f : Csd} (h : 9 ≤ f.cSizeMult.toNat + 2 + f.readBlLen.toNat) : 512 ∣ bytesV1 f := by
  rw [bytesV1, mul_assoc, ← pow_add]
  exact Dvd.dvd.mul_left (pow_dvd_pow 2 h) _

theorem sectorsV1_le (f : Csd) : sectorsV1 f ≤ 2 ^ 27 := by
  have := bytesV1_le f
  rw [sectorsV1_eq]
  omega

theorem sectorsV1_eq_zero_iff (f : Csd) : sectorsV1 f = 0 ↔ bytesV1 f < 512 := by
  rw [sectorsV1_eq]
  omega

theorem exponent_lt_of_truncated {f : Csd} (h : sectorsV1 f * 512 ≠ bytesV1 f) : f.cSizeMult.toNat + 2 + f.readBlLen.toNat < 9 := by
  by_contra large
  exact h (Nat.div_mul_cancel (sector_dvd_bytesV1 (not_lt.1 large)))

theorem sectorsV2_pos (f : Csd) : 0 < sectorsV2 f := by
  unfold sectorsV2
  omega

theorem sectorsV2_le (f : Csd) : sectorsV2 f ≤ 2 ^ 32 := by
  have := f.cSizeV2.isLt
  unfold sectorsV2
  omega

theorem sectorsV2_eq_max_iff (f : Csd) : sectorsV2 f = 2 ^ 32 ↔ f.cSizeV2 = 0x3FFFFF := by
  rw [← BitVec.toNat_inj, sectorsV2]
  simp
  omega

/-! ### The capacity that `init` stores (R187, 43_init_sequence.md R216) -/

theorem csdSectors_version1 {f : Csd} {mmcPath : Bool} (h : mmcPath = true ∨ f.layout = 0) :
    csdSectors f mmcPath = some (sectorsV1 f) :=
  if_pos (by simpa using h)

theorem csdSectors_version2 {f : Csd} (h : f.layout = 1) : csdSectors f false = some (sectorsV2 f) := by
  simp [csdSectors, h]

theorem csdSectors_other {f : Csd} (h : f.layout = 2 ∨ f.layout = 3) : csdSectors f false = none := by
  obtain h | h := h <;> simp [csdSectors, h]

/-- A stored capacity is the exact one: what would not fit 32 bits is not stored. -/
theorem usableSectors_eq_some {f : Csd} {mmcPath : Bool} {n : Word} (h : usableSectors f mmcPath = some n) :
    csdSectors f mmcPath = some n.toNat := by
  unfold usableSectors at h
  split at h
  case h_1 => cases h
  case h_2 k sectors =>
    split at h
    case isTrue => cases h
    case isFalse fits =>
      obtain ⟨small, -⟩ := not_or.1 fits
      cases h
      rw [sectors, BitVec.toNat_ofNat, Nat.mod_eq_of_lt (not_le.1 small)]

theorem usableSectors_eq_none_iff {f : Csd} {mmcPath : Bool} {k : Nat} (h : csdSectors f mmcPath = some k) :
    usableSectors f mmcPath = none ↔ 2 ^ 32 ≤ k ∨ mmcPath = false ∧ k = 0 := by
  rw [usableSectors, h, ite_eq_left_iff]
  simp [or_iff_not_imp_left]

theorem usableSectors_eq_none_of_csdSectors {f : Csd} {mmcPath : Bool} (h : csdSectors f mmcPath = none) :
    usableSectors f mmcPath = none := by
  rw [usableSectors, h]

theorem usableSectors_mmc_ne_none (f : Csd) : usableSectors f true ≠ none := by
  have small := sectorsV1_le f
  rw [Ne, usableSectors_eq_none_iff (csdSectors_version1 (.inl rfl))]
  rintro (large | ⟨sd, -⟩)
  · omega
  · cases sd

/-- On the SD path a CSD is unusable by its layout, or because its capacity is 0 (version 1) or 2^32 sectors (version 2). -/
theorem usableSectors_sd_eq_none_iff (f : Csd) : usableSectors f false = none ↔
    f.layout = 2 ∨ f.layout = 3 ∨ (f.layout = 0 ∧ sectorsV1 f = 0) ∨ (f.layout = 1 ∧ f.cSizeV2 = 0x3FFFFF) := by
  have layouts : ∀ l : BitVec 2, l = 0 ∨ l = 1 ∨ l = 2 ∨ l = 3 := by decide
  rw [← sectorsV2_eq_max_iff]
  obtain layout | layout | layout | layout := layouts f.layout
  · have small := sectorsV1_le f
    rw [usableSectors_eq_none_iff (csdSectors_version1 (.inr layout))]
    simp [layout]
    omega
  · have small := sectorsV2_le f
    have pos := sectorsV2_pos f
    rw [usableSectors_eq_none_iff (csdSectors_version2 layout)]
    simp [layout]
    omega
  · simp [usableSectors_eq_none_of_csdSectors (csdSectors_other (.inl layout)), layout]
  · simp [usableSectors_eq_none_of_csdSectors (csdSectors_other (.inr layout)), layout]

/-! ### The statements -/

/-- Settles O30: the conditions of the two predicates, and each field by its bits. -/
theorem statusPredicates : Obligations.StatusPredicates := fun s =>
  ⟨statusOk_iff s, switchOk_iff s, parseR1_err_eq_zero_iff s, rfl, rfl, rfl⟩

/-- Settles O31: the shift word by word, on the numbers that the words stand for. -/
theorem cidIsTheShiftedRegister : Obligations.CidIsTheShiftedRegister := fun r => ⟨parseCid_toBits r, parseCid_top r⟩

/-- Settles O32: both formulas hold by definition, and their ranges by the widths of the fields. -/
theorem csdCapacitiesAreExact : Obligations.CsdCapacitiesAreExact := fun csd =>
  let f := parseCsd csd
  ⟨sectorsV1_eq f, bytesV1_le f, sectorsV1_le f, sectorsV1_eq_zero_iff f, exponent_lt_of_truncated, rfl, sectorsV2_le f,
    sectorsV2_eq_max_iff f⟩

/-- Settles O33: what is stored is the capacity of the path and layout, and the SD path is the one with unusable CSDs. -/
theorem storedCapacityIsExact : Obligations.StoredCapacityIsExact := by
  intro csd mmcPath
  refine ⟨fun n usable => ⟨fun version1 => ?_, fun sd version2 => ?_, fun sd => ?_⟩, ?_⟩
  · exact Option.some.inj ((usableSectors_eq_some usable).symm.trans (csdSectors_version1 version1))
  · subst sd
    exact Option.some.inj ((usableSectors_eq_some usable).symm.trans (csdSectors_version2 version2))
  · subst sd
    exact usableSectors_ne_zero usable
  · cases mmcPath with
    | true => exact iff_of_false (usableSectors_mmc_ne_none (parseCsd csd)) nofun
    | false => exact (usableSectors_sd_eq_none_iff (parseCsd csd)).trans (and_iff_right rfl).symm

end Sys2Proof.Machine
end

section
/-! The statements about the steps of `init`, label by label (43_init_sequence.md): what each step makes of the way its command ended. -/

namespace Sys2Proof.Machine

/-! ### A step at its label -/

section
variable {l : Label} {s u : State}

theorem State.At.step_eq (here : s.At l) : step s = stepAt l s := by
  obtain ⟨fetch, busy, free, rfl⟩ := here
  obtain ⟨_, _, run⟩ := stepRunsSequencer s fetch
  exact run busy free

/-- A step that sends a command goes on from the state in which the command ended. -/
theorem State.At.step_after {r : Step} {f : State → Step} (here : s.At l) (rule : stepAt l s = andThen r f) (ended : r = .next u) :
    step s = f u := by
  rw [here.step_eq, rule, ended]
  rfl

end

/-! ### Guards (R201, R202) -/

theorem portOf_eq_none {devNum : BitVec 8} (h : 1 < devNum.toNat) : portOf devNum = none := by
  unfold portOf
  split
  · omega
  · omega
  · rfl

/-- The pins do not depend on the sequencer. -/
theorem samplePins_withSeq (s : State) (q : Sequencer) : ({ s with seq := q } : State).samplePins = { s.samplePins with seq := q } := by
  unfold State.samplePins
  dsimp only
  split <;> rfl

section
variable {s : State} {p : Port}

theorem stepIGuard_invalid (h : 1 < s.seq.op.devNum.toNat) : stepIGuard s = .next (hostReturn .init (.status .invalParam) s) := by
  rw [stepIGuard, portOf_eq_none h]

theorem stepIGuard_initialized (device : s.seq.op.devNum = devNumOf p) (present : (s.slot.get p).kind ≠ .absent) :
    stepIGuard s = .next (hostReturn .init (.status .initialized) s) := by
  simp only [stepIGuard, portOf_eq_some_iff.2 device, if_pos present]

/-- What the presence step makes of the working registers (R202). -/
def startWork (p : Port) (s : State) : State := { s with seq := { s.seq with cur := p, w := Slot.zero, tmp := s.seq.tmp.cleared } }

theorem startWork_presentLevel (p : Port) (s : State) : (startWork p s).presentLevel p = s.samplePins.pin.present.get p := by
  rw [State.presentLevel, startWork, samplePins_withSeq]

theorem presentRun_startWork (p : Port) (s : State) : presentRun p (startWork p s) =
    { s.samplePins with
      seq := (startWork p s).seq
      hist := s.hist ++ [.present p (s.samplePins.pin.present.get p)] } := by
  rw [presentRun, log_samplePins, startWork_presentLevel, startWork, samplePins_withSeq]

theorem stepIGuard_absent (device : s.seq.op.devNum = devNumOf p) (absent : (s.slot.get p).kind = .absent) :
    stepIGuard s = .next (if s.samplePins.pin.present.get p then (presentRun p (startWork p s)).goto .a1
      else hostReturn .init (.status .noCard) (forgetRequest (presentRun p (startWork p s)))) := by
  rw [← startWork_presentLevel]
  simp only [stepIGuard, portOf_eq_some_iff.2 device, if_neg (not_not.2 absent)]
  rfl

end

/-- Settles O34: the three checks in their order, each with its return; the last one reads the pin. -/
theorem initGuards : Obligations.InitGuards := by
  intro s here _
  rw [here.step_eq]
  refine ⟨stepIGuard_invalid, fun p => stepIGuard_initialized, fun p device absent noCard => ?_, fun p device absent card => ?_⟩
  · have run := stepIGuard_absent device absent
    rw [presentRun_startWork, noCard] at run
    refine ⟨_, run, rfl, rfl, rfl, ?_, List.append_assoc _ _ _, samplePins_slot s, samplePins_ctl s, samplePins_de s, fun a => ?_⟩
    · exact congrArg (fun h : HostSide => { h with result := some (.status .noCard) }) (samplePins_host s)
    · exact congrArg (·.readByte a) (samplePins_mem s)
  · have run := stepIGuard_absent device absent
    rw [presentRun_startWork, card] at run
    exact run

/-! ### Stage A (R203 to R206) -/

theorem echoMatches_iff (x : Word) : echoMatches x = true ↔ x.extractLsb 11 0 = 0x1AA := by
  rw [echoMatches, beq_iff_eq]

/-- Settles O35: A1 programs and records, A2 and A3 branch on the way their command ended. -/
theorem stageA : Obligations.StageA := by
  refine ⟨fun s here => ?_, fun s u => ⟨fun here ended => (here.step_after (l := .a2) rfl ended :), fun here ended => ?_⟩⟩
  · refine ⟨_, here.step_eq, programmedWith_program _ _ _ _, rfl, ?_, ?_, rfl, ?_, rfl⟩
    · exact pair_get_set_of_ne _ _ (port_other_ne _)
    · exact pair_get_set_of_ne _ _ (port_other_ne _)
    · exact List.append_assoc _ _ _
  · have next := here.step_after (l := .a3) rfl ended
    obtain ⟨sent, _⟩ := issueCommand_sent s rfl u ended
    have port : u.seq.cur = s.seq.cur := sent.cur
    rw [next]
    refine ⟨fun ok echo => ?_, fun ok mismatch => ?_, fun silent embedded => ?_, fun silent removable => ?_, fun failed => ?_⟩
    · rw [ok]
      exact congrArg Host.Outcome.next (if_pos ((echoMatches_iff _).2 echo))
    · rw [ok]
      exact congrArg Host.Outcome.next (if_neg (mt (echoMatches_iff _).1 mismatch))
    · rw [silent, port, embedded]
      rfl
    · rw [silent, port, removable]
      rfl
    · obtain failed | failed := failed <;> rw [failed] <;> rfl

/-! ### Stage B (R206 to R211) -/

section
variable {l : Label} {t : State}

theorem pollOcr_ready (ready : t.seq.tmp.ocr.getLsbD 31 = true) : pollOcr l t = t.goto .bDone := if_pos ready

theorem pollOcr_expired (waiting : t.seq.tmp.ocr.getLsbD 31 = false) (expired : t.expired = true) :
    pollOcr l t = t.dropTimer.raise .opCondTmout := by
  rw [pollOcr, waiting, expired]
  rfl

theorem pollOcr_again (waiting : t.seq.tmp.ocr.getLsbD 31 = false) (inTime : t.expired = false) :
    pollOcr l t = t.dropTimer.goto l := by
  rw [pollOcr, waiting, inTime]
  rfl

end

/-- After a polling command the OCR is the response (41_card_commands.md R153, R154). -/
theorem keepOcr_ensures (r : Step) : Ensures (andThen r keepOcr) fun u => u.ctl.tstatus = .ok → u.seq.tmp.ocr = u.ctl.resp.w0 := by
  refine Ensures.bind (P := fun _ => True) (fun _ _ => trivial) fun t _ => ?_
  rw [keepOcr_eq]
  refine ensures_next fun ok => ?_
  dsimp only at ok ⊢
  rw [if_pos ok]

/-- Settles O36: a poll that ended with T_OK goes by the ready bit, then by TIMER; another end fails, or falls back once. -/
theorem operatingConditions : Obligations.OperatingConditions := by
  refine ⟨fun s u here ended => ?_, fun s u here ended => ?_⟩
  · have next := here.step_after (l := .bSd) rfl ended
    have ocr := keepOcr_ensures _ u ended
    rw [next]
    refine ⟨fun silent legacy => ?_, fun failed sd => ?_, fun ok ready => ?_, fun ok waiting expired => ?_, fun ok waiting inTime => ?_⟩
    · rw [if_pos ⟨silent, legacy⟩]
      rfl
    · rw [if_neg sd]
      exact congrArg Host.Outcome.next (if_neg failed)
    all_goals
      rw [if_neg (by simp [ok])]
      refine congrArg Host.Outcome.next ((if_pos ok).trans ?_)
      rw [← ocr ok] at *
    · exact pollOcr_ready ready
    · exact pollOcr_expired waiting expired
    · exact pollOcr_again waiting inTime
  · have next := here.step_after (l := .bMmc) rfl ended
    have ocr := keepOcr_ensures _ u ended
    rw [next]
    refine ⟨fun failed => congrArg Host.Outcome.next (if_neg failed), fun ok ready => ?_, fun ok waiting expired => ?_,
      fun ok waiting inTime => ?_⟩
    all_goals
      refine congrArg Host.Outcome.next ((if_pos ok).trans ?_)
      rw [← ocr ok] at *
    · exact pollOcr_ready ready
    · exact pollOcr_expired waiting expired
    · exact pollOcr_again waiting inTime

/-- The host's voltage mask is its window at bits 23:8 (30_encoding.md R95). -/
theorem vddMask_eq (cfg : Config) : vddMask cfg = 0#8 ++ cfg.vddWindow ++ 0#8 := rfl

theorem voltOk_iff (cfg : Config) (o : Word) : (parseR3 (vddMask cfg) o).voltOk = true ↔ o &&& (0#8 ++ cfg.vddWindow ++ 0#8) ≠ 0 := by
  rw [← vddMask_eq]
  exact bne_iff_ne

/-- With an overlap of the voltages stage B ends by recording the kind. -/
theorem stepBDone_of_overlap {s : State} (overlap : s.seq.tmp.ocr &&& (0#8 ++ s.cfg.vddWindow ++ 0#8) ≠ 0) {k : Kind}
    (kind : kindOf s.seq.tmp.mmc s.seq.tmp.sd2 (parseR3 (vddMask s.cfg) s.seq.tmp.ocr) = k) :
    stepBDone s = .next { s with seq := { s.seq with pc := .c1, w := { s.seq.w with kind := k, addressing := k.addressing } } } := by
  subst kind
  exact if_pos ((voltOk_iff _ _).2 overlap)

/-- Settles O37: the voltage test is the first thing that the step asks. -/
theorem voltageMustOverlap : Obligations.VoltageMustOverlap := by
  intro s here
  rw [here.step_eq]
  refine ⟨fun apart => ?_, fun overlap => ⟨_, stepBDone_of_overlap overlap rfl, rfl⟩⟩
  exact if_neg (mt (voltOk_iff _ _).1 (not_not.2 apart))

/-- The sector mode of an MMC is bits 30:29 = 2 (42_response_parser.md R179). -/
theorem mmcSector_iff (mask o : Word) : (parseR3 mask o).mmcSector = true ↔ o.extractLsb 30 29 = 2 := by
  have bits : (parseR3 mask o).mmcSector = ((o.extractLsb 30 29).getLsbD 1 && !(o.extractLsb 30 29).getLsbD 0) := by
    simp [parseR3]
  have two : ∀ x : BitVec 2, (x.getLsbD 1 && !x.getLsbD 0) = true ↔ x = 2 := by decide
  rw [bits]
  exact two _

/-- Settles O38: the path first, then the capacity bit of the path. -/
theorem kindFromOcr : Obligations.KindFromOcr := by
  intro s here overlap
  rw [here.step_eq]
  refine ⟨fun mmc sector => ?_, fun mmc byte => ?_, fun sd sd2 hc => ?_, fun sd standard => ?_⟩
  all_goals refine stepBDone_of_overlap overlap ?_
  · rw [kindOf, mmc, if_pos rfl, if_pos ((mmcSector_iff _ _).2 sector)]
  · rw [kindOf, mmc, if_pos rfl, if_neg (mt (mmcSector_iff _ _).1 byte)]
  · rw [kindOf, sd, sd2]
    exact if_pos hc
  · rw [kindOf, sd, if_neg Bool.false_ne_true]
    refine if_neg ?_
    obtain legacy | low := standard
    · rw [legacy]
      exact Bool.false_ne_true
    · rw [parseR3, low, Bool.and_false]
      exact Bool.false_ne_true

/-! ### Stages C and E (R212, R213, R218) -/

/-- Settles O39: each step branches on the way its command ended, E1 also on the locked bit. -/
theorem identifyAndSelect : Obligations.IdentifyAndSelect := by
  refine fun s u => ⟨fun here ended => (here.step_after (l := .c1) rfl ended :), fun here ended => ?_, fun here ended => ?_⟩
  · have call : (if s.seq.tmp.mmc then execSetRelativeAddr s.cfg.mmcRca s else execSendRelativeAddr s) = .next u := by
      rw [← ended]
      split <;> rfl
    exact (here.step_after (l := .c2) rfl call :)
  · have next := here.step_after (l := .e1) rfl ended
    obtain ⟨sent, _⟩ := issueCommand_sent s rfl u ended
    have path : u.seq.tmp.mmc = s.seq.tmp.mmc := sent.mmc
    rw [next]
    refine ⟨fun failed => congrArg Host.Outcome.next (if_neg failed), fun ok locked => ?_, fun ok unlocked => ?_⟩
    all_goals refine congrArg Host.Outcome.next ((if_pos ok).trans ?_)
    · exact if_pos locked
    · rw [← path]
      exact if_neg (ne_true_of_eq_false unlocked)

/-! ### Stage D (R214 to R217) -/

theorem slider_eq (t : State) : t.slider = (match t.seq.cur with
    | .p0 => t.samplePins.pin.wp.p0
    | .p1 => false) := by
  unfold State.slider
  cases t.seq.cur <;> rfl

theorem sampleSlider_hist (t : State) : (sampleSlider t).hist = t.hist ++ (match t.seq.cur with
    | .p0 => [.wpPin .p0 t.slider]
    | .p1 => []) := by
  unfold sampleSlider State.slider
  cases t.seq.cur <;> simp

/-- Sampling the slider changes the history and what the environment drives. -/
theorem sampleSlider_frame (t : State) :
    (sampleSlider t).seq = t.seq ∧ (sampleSlider t).ctl = t.ctl ∧ (sampleSlider t).slot = t.slot ∧ (sampleSlider t).de = t.de ∧
      (sampleSlider t).host = t.host ∧ (sampleSlider t).mem = t.mem := by
  unfold sampleSlider
  cases t.seq.cur <;> simp

/-- Recording a capacity, or its failure, changes the sequencer only. -/
theorem recordSectors_frame (n : Option Word) (t : State) : recordSectors n t = { t with seq := (recordSectors n t).seq } := by
  cases n <;> rfl

/-- The write-protect bits, permanent, temporary and slider (10_state.md R23). -/
theorem wpBits_csd (csd : BitVec 128) (slider : Bool) : wpBits slider (parseCsd csd).tmpWp (parseCsd csd).permWp =
    0#5 ++ csd.extractLsb 13 13 ++ csd.extractLsb 12 12 ++ BitVec.ofBool slider := by
  have bit : ∀ k, csd.extractLsb k k = (BitVec.ofBool (csd.getLsbD k)).cast (by omega) := fun k => by
    ext i hi
    obtain rfl : i = 0 := by omega
    simp
  rw [bit 13, bit 12]
  rfl

/-- Settles O40: the command runs in the state with the new clock; after a good one the slider is sampled and the fields are recorded. -/
theorem csdStep : Obligations.CsdStep := by
  rintro s m u here rfl ended
  have next := here.step_after (l := .d1) rfl ended
  obtain ⟨sent, _⟩ := execSendCsd_sent _ _ u ended
  have port : u.seq.cur = s.seq.cur := sent.cur
  have path : u.seq.tmp.mmc = s.seq.tmp.mmc := sent.mmc
  rw [next, ← port, ← path]
  refine ⟨fun failed => congrArg Host.Outcome.next (if_neg failed), fun ok => ?_⟩
  obtain ⟨seq, ctl, slot, de, host, mem⟩ := sampleSlider_frame u
  refine ⟨storeCsd u, u.slider, congrArg Host.Outcome.next (if_pos ok), slider_eq u, ?_⟩
  rw [storeCsd, recordSectors_frame]
  refine ⟨sampleSlider_hist u, ctl, slot, de, host, mem, ?_⟩
  cases usableSectors (parseCsd u.seq.tmp.csd) u.seq.tmp.mmc with
  | none => simp [recordSectors, recordCsd, seq]
  | some n => 
    rw [← wpBits_csd]
    simp [recordSectors, recordCsd, seq, parseCsd]

/-! ### Stage F (R219, R220) -/

/-- The low two bits of CARD_TYPE (42_response_parser.md R189). -/
theorem extCsdHsCap_eq (m : Memory) : extCsdHsCap m = ((m.readByte 196).getLsbD 0 || (m.readByte 196).getLsbD 1) := by
  have low : ∀ b : Byte, (b &&& 0x03 != 0) = (b.getLsbD 0 || b.getLsbD 1) := by decide
  exact low _

/-- The EXT_CSD goes to the scratch: no byte of memory changes. -/
theorem execSendExtCsd_sameMemory (s : State) : Ensures (execSendExtCsd s) s.SameMemory := by
  unfold execSendExtCsd
  rcases issue_cases s.seq.cur cdSendExtCsd 1 Config.blockSize .scratch s with ⟨_, _, h⟩ | ⟨_, h⟩ <;> rw [h]
  · exact ensures_refused
  · exact ensures_next (issueRun_sameOutside s.seq.cur cdSendExtCsd 1 Config.blockSize .scratch s).1

/-- Parsing an EXT_CSD changes the sequencer and the draw counter only. -/
theorem storeExtCsd_frame (u : State) :
    storeExtCsd u = { u with seq := (storeExtCsd u).seq, env := { u.env with draws := u.env.draws + 1 } } := by
  unfold storeExtCsd
  dsimp only
  split <;> rfl

/-- Settles O41: after a good block the capacity is the one of SEC_COUNT where that is not 0, and the step fails if it still is 0. -/
theorem extCsdStep : Obligations.ExtCsdStep := by
  intro s u here ended
  have next := here.step_after (l := .f1) rfl ended
  have mem := execSendExtCsd_sameMemory s u ended
  by_cases ok : u.ctl.tstatus = .ok
  · refine ⟨storeExtCsd u, next.trans (congrArg Host.Outcome.next (if_pos ok)), ?_⟩
    rw [storeExtCsd_frame]
    refine ⟨rfl, rfl, rfl, mem, fun failed => absurd ok failed, fun _ => ?_⟩
    dsimp only
    rw [← extCsdHsCap_eq]
    unfold storeExtCsd
    refine ⟨fun usable => ?_, fun zero => ?_⟩
    · rw [if_neg (by exact usable)]
      exact ⟨rfl, rfl, rfl⟩
    · rw [if_pos (by exact zero)]
      exact ⟨rfl, rfl⟩
  · exact ⟨_, next.trans (congrArg Host.Outcome.next (if_neg ok)), rfl, rfl, rfl, mem, fun _ => ⟨rfl, rfl⟩, (absurd · ok)⟩

/-! ### Acceptance and commit (R200, R221) -/

/-- Settles O7: every request asks first whether the sequencer is free. -/
theorem requestsAreAcceptedOneAtATime : Obligations.RequestsAreAcceptedOneAtATime := by
  intro d c n buf s
  refine ⟨fun busy i request => ?_, fun idle => ?_⟩
  · have refused : ∀ r, whenIdle s r = .refused .reentrantRequest := fun r => if_pos busy
    simp only [List.mem_cons, List.not_mem_nil, or_false] at request
    obtain rfl | rfl | rfl | rfl | rfl | rfl | rfl | rfl := request
    all_goals exact refused _
  · have accepted : ∀ r, whenIdle s r = r := fun r => if_neg (by simp [idle])
    exact ⟨accepted _, accepted _, accepted _⟩

/-- Settles O44: the slot is written and the request returns. -/
theorem commitStep : Obligations.CommitStep := by
  intro s here
  obtain ⟨fetch, _⟩ := id here
  exact ⟨_, here.step_eq, pair_get_set_self _ _ _, pair_get_set_of_ne _ _ (port_other_ne _), rfl, rfl, rfl, rfl, rfl, rfl,
    fun _ => rfl, fetch⟩

end Sys2Proof.Machine
end

section
/-! A command without data that the card answers well: it ends with T_OK, and its answer is taken from the scripts (40_controller_primitive.md
R124, R126). -/

namespace Sys2Proof.Machine

/-- A command without data has been issued on port `p`, and the card has answered `r`. -/
structure WellAnswered (p : Port) (cd : Descriptor) (r : Words4) (s t : State) : Prop where
  issued : Issued p s t
  seq : t.seq = s.seq
  mem : t.mem = s.mem
  ok : t.ctl.tstatus = .ok
  resp : holdsResponse cd.rk r t.ctl.resp
  answers : t.env.answers = s.env.answers.tail
  waits : t.env.busy = if cd.rk = .r1b then s.env.busy.tail else s.env.busy
  pins : t.env.pins = s.env.pins
  hist : ∃ words, t.hist = s.hist ++ [.cmd p cd] ++ irqEvents s.cfg ++ [.resp .ok words]

theorem nextAnswer_of_cons {s : State} {a : CardAnswer} {answers : List CardAnswer} (h : s.env.answers = a :: answers) :
    s.nextAnswer = a := by
  rw [State.nextAnswer, h]

section
variable {p : Port} {cd : Descriptor} {r : Words4} {s : State}

/-- A good answer, and a busy wait that ends where one is awaited, mean T_OK. -/
theorem State.Outcome.ok_of_good {st : TStatus} {words : List Word} (outcome : s.Outcome cd st words) (good : s.nextAnswer = .good r)
    (released : cd.rk = .r1b → s.env.busy.head? = some .released) : st = .ok := by
  rw [State.Outcome, good] at outcome
  by_cases silent : cd.rk = .none
  · rw [if_pos silent] at outcome
    exact outcome.2
  · rw [if_neg silent] at outcome
    obtain ⟨_, ok | ⟨waits, _⟩, busy⟩ := outcome
    · exact ok
    · exact (busy waits).1 (released waits)

/-- Of the busy waits a well answered command takes one, if it awaits one. -/
theorem answered_waits (noData : cd.dir = .none) (good : s.nextAnswer = .good r) (bc : BitVec 16) :
    (answered cd bc s).1.env.busy = if cd.rk = .r1b then s.env.busy.tail else s.env.busy := by
  rw [answered_noData noData, good]
  by_cases waits : cd.rk = .r1b
  · rw [if_pos waits, receive_good (by simp [waits])]
    rcases waitPhase_r1b waits (setResp cd.rk r s.dropAnswer) with ⟨_, run⟩ | ⟨_, run⟩ <;> rw [run] <;> rfl
  · rw [if_neg waits, waitPhase_noWait waits noData, (receive_frame cd.rk (.good r) s.dropAnswer).2]
    rfl

theorem issueRun_wellAnswered (noData : cd.dir = .none) (good : s.nextAnswer = .good r)
    (released : cd.rk = .r1b → s.env.busy.head? = some .released) : WellAnswered p cd r s (issueRun p cd 0 0 .null s) := by
  obtain ⟨words, outcome, holds, hist⟩ := issueRun_noData_reply noData p 0 0 .null s
  have ok := outcome.ok_of_good good released
  obtain ⟨mem, seq⟩ := issueRun_noStore p cd 0 0 .null s (dir_ne_read noData)
  have env := issueRun_noData_env noData p 0 0 .null s
  refine ⟨issueRun_issued p cd 0 0 .null s, seq, mem, ok, holds r good ok, ?_, ?_, ?_, words, by rw [hist, ok]⟩
  · rw [env]
  · rw [issueRun_noData noData, completeIssue_env]
    exact answered_waits (s := (beginIssue p s).log (.cmd p cd)) noData good 0
  · rw [env]

end

/-- After T_OK a part of the response is kept. -/
theorem andThen_onOk {r : Step} {u : State} (run : r = .next u) (ok : u.ctl.tstatus = .ok) (keep : State → State) :
    andThen r (onOk · keep) = .next (keep u) := by
  rw [run]
  exact congrArg Host.Outcome.next (if_pos ok)

end Sys2Proof.Machine
end

section
/-! `init` of an SD card of version 2 (43_init_sequence.md R224): how far it has come, and how each step takes it on when the card answers
well. -/

namespace Sys2Proof.Machine

/-! ### How far `init` has come -/

/-- The port and the word of a command that a history records. -/
def sentCommand : Event → Option (Port × BitVec 48)
  | .cmd q cd => some (q, cd.word)
  | _ => none

/-- A point of `init`: the label, the working slot, what is left of the card's scripts, and the commands sent. -/
structure Progress where
  label : Label
  work : Slot
  answers : List CardAnswer
  waits : List BusyAnswer
  sent : List (Port × BitVec 48)

/-- `init`, requested in `s₀` for the SD card in port `p`, has come as far as `g` says. -/
structure Underway (s₀ : State) (p : Port) (g : Progress) (s : State) : Prop where
  here : s.At g.label
  op : s.seq.op.op = .init
  cur : s.seq.cur = p
  work : s.seq.w = g.work
  sd : s.seq.tmp.mmc = false
  programmed : s.ctl.ProgrammedWith p g.work.clockHz g.work.busWidth
  slot : s.slot = s₀.slot
  host : s.host = s₀.host
  cfg : s.cfg = s₀.cfg
  pin : s.pin = s₀.pin
  mem : s.mem = s₀.mem
  answers : s.env.answers = g.answers
  waits : s.env.busy = g.waits
  pins : s.env.pins = []
  sent : ∃ events, s.hist = s₀.hist ++ events ∧ events.filterMap sentCommand = g.sent

theorem filterMap_sentCommand_irqEvents (cfg : Config) : (irqEvents cfg).filterMap sentCommand = [] := by
  unfold irqEvents
  split <;> rfl

section
variable {s₀ s t u : State} {p : Port} {l l' : Label} {w w' : Slot} {answers : List CardAnswer} {waits : List BusyAnswer}
  {sent : List (Port × BitVec 48)} {r r' : Words4} {cd : Descriptor}

/-- Past A1 the primitive may be called on the port (40_controller_primitive.md R138). -/
theorem Underway.ready (h : Underway s₀ p ⟨l, w, answers, waits, sent⟩ s) (late : l.afterA1 = true) : s.ready s.seq.cur = true := by
  obtain ⟨_, busy, free, pc⟩ := h.here
  obtain ⟨clkSet, widthSet, _, _⟩ := h.programmed
  have past : s.seq.pc ≠ .idle ∧ s.seq.pc ≠ .iGuard := by
    rw [pc]
    constructor <;> rintro rfl <;> cases late
  rw [h.cur]
  simp [State.ready, State.portOpen, State.initRunningOn, State.programmed, busy, free, h.op, h.cur, clkSet, widthSet, past]

theorem Underway.work_eq (h : Underway s₀ p ⟨l, w, answers, waits, sent⟩ s) : s.seq.w = w := h.work

/-- A step writes the sequencer's registers: the label, and of the working slot what does not stand in the port's registers. -/
theorem Underway.moveTo (h : Underway s₀ p ⟨l, w, answers, waits, sent⟩ s) {q : Sequencer} (work : q.w = w')
    (busy : q.busy = s.seq.busy := by rfl) (op : q.op = s.seq.op := by rfl) (cur : q.cur = s.seq.cur := by rfl)
    (pc : q.pc = l' := by rfl) (sd : q.tmp.mmc = s.seq.tmp.mmc := by rfl) (clock : w'.clockHz = w.clockHz := by rfl)
    (width : w'.busWidth = w.busWidth := by rfl) :
    Underway s₀ p ⟨l', w', answers, waits, sent⟩ { s with seq := q } := by
  obtain ⟨fetch, busy', free, _⟩ := h.here
  exact { h with
    here := ⟨fetch, busy.trans busy', free, pc⟩
    op := by rw [← h.op, ← op]
    cur := cur.trans h.cur
    work := work
    sd := sd.trans h.sd
    programmed := by
      dsimp only
      rw [clock, width]
      exact h.programmed }

theorem Underway.goesTo (h : Underway s₀ p ⟨l, w, answers, waits, sent⟩ s) (l' : Label) :
    Underway s₀ p ⟨l', w, answers, waits, sent⟩ (s.goesTo l') :=
  h.moveTo h.work

theorem Underway.startLoop (h : Underway s₀ p ⟨l, w, answers, waits, sent⟩ s) :
    Underway s₀ p ⟨l, w, answers, waits, sent⟩ s.startLoop := { h with }

/-- An event that is no command. -/
theorem Underway.log (h : Underway s₀ p ⟨l, w, answers, waits, sent⟩ s) {e : Event} (k : sentCommand e = none) :
    Underway s₀ p ⟨l, w, answers, waits, sent⟩ (s.log e) := by
  obtain ⟨events, hist, commands⟩ := h.sent
  exact { h with sent := ⟨events ++ [e], by rw [log_hist, hist, List.append_assoc], by simp [commands, k]⟩ }

/-- A well answered command is added to those sent. -/
theorem Underway.wellAnswered (h : Underway s₀ p ⟨l, w, .good r :: answers, waits, sent⟩ s) (c : WellAnswered p cd r s t) :
    Underway s₀ p ⟨l, w, answers, if cd.rk = .r1b then waits.tail else waits, sent ++ [(p, cd.word)]⟩ t := by
  obtain ⟨fetch, busy, _, pc⟩ := h.here
  obtain ⟨events, hist, commands⟩ := h.sent
  obtain ⟨words, hist'⟩ := c.hist
  have issued := c.issued
  exact {
    here := ⟨issued.fetch.trans fetch, by rwa [c.seq], issued.busy, by rwa [c.seq]⟩
    op := by rw [c.seq, h.op]
    cur := by rw [c.seq, h.cur]
    work := by rw [c.seq, h.work]
    sd := by rw [c.seq, h.sd]
    programmed := by
      unfold Controller.ProgrammedWith
      rw [issued.clkSet, issued.widthSet, issued.clk, issued.width]
      exact h.programmed
    slot := issued.slot.trans h.slot
    host := issued.host.trans h.host
    cfg := issued.cfg.trans h.cfg
    pin := issued.pin.trans h.pin
    mem := c.mem.trans h.mem
    answers := by rw [c.answers, h.answers]; rfl
    waits := by rw [c.waits, h.waits]
    pins := c.pins.trans h.pins
    sent := by
      refine ⟨events ++ [.cmd p cd] ++ irqEvents s.cfg ++ [.resp .ok words], by simp [hist', hist], ?_⟩
      simp [commands, filterMap_sentCommand_irqEvents, sentCommand] }

/-- The card answers the next command well. -/
theorem Underway.issueRun (h : Underway s₀ p ⟨l, w, .good r :: answers, waits, sent⟩ s) (noData : cd.dir = .none)
    (released : cd.rk = .r1b → waits.head? = some .released) : WellAnswered p cd r s (issueRun p cd 0 0 .null s) :=
  issueRun_wellAnswered noData (nextAnswer_of_cons h.answers) fun k => by rw [h.waits, released k]

/-- A command of a step. -/
theorem Underway.command (h : Underway s₀ p ⟨l, w, .good r :: answers, waits, sent⟩ s) (late : l.afterA1 = true) (noData : cd.dir = .none)
    (released : cd.rk = .r1b → waits.head? = some .released) :
    ∃ u, issueCommand s.seq.cur cd s = .next u ∧ WellAnswered p cd r s u ∧
      Underway s₀ p ⟨l, w, answers, if cd.rk = .r1b then waits.tail else waits, sent ++ [(p, cd.word)]⟩ u := by
  have accepted := issueRefusal_noData s.seq.cur cd 0 0 .null s noData (h.ready late) rfl
  have ended := h.issueRun noData released
  refine ⟨_, ?_, ended, h.wellAnswered ended⟩
  rw [issueCommand, issue, accepted, h.cur]

/-- An application command of a step: the pair of 30_encoding.md R104. -/
theorem Underway.pair (h : Underway s₀ p ⟨l, w, .good r :: .good r' :: answers, waits, sent⟩ s) (late : l.afterA1 = true)
    (noData : cd.dir = .none) (noWait : cd.rk ≠ .r1b) :
    ∃ u, acmd s.seq.cur s.seq.w.rca cd s = .next u ∧ u.seq = s.seq ∧ u.ctl.tstatus = .ok ∧ holdsResponse cd.rk r' u.ctl.resp ∧
      Underway s₀ p ⟨l, w, answers, waits, sent ++ [(p, (cdAppCmd w.rca).word), (p, cd.word)]⟩ u := by
  have accepted := issueRefusal_noData s.seq.cur cd 0 0 .null s noData (h.ready late) rfl
  have first := h.issueRun (cd := cdAppCmd w.rca) rfl nofun
  have between := h.wellAnswered first
  have second := between.issueRun noData (absurd · noWait)
  have after := between.wellAnswered second
  rw [if_neg noWait, List.append_assoc] at after
  refine ⟨_, ?_, second.seq.trans first.seq, second.ok, second.resp, after⟩
  rw [acmd, accepted, acmdRun, h.work, h.cur, afterAppCmd, if_pos first.ok]

end

end Sys2Proof.Machine
end

section
/-! `init` of an SD card of version 2, step by step, and from request to return (43_init_sequence.md R224). `Underway.l` is the step at label
`l`. -/

namespace Sys2Proof.Machine

/-! ### Runs -/

/-- After `n` steps from `s` the machine is in a state that satisfies `P`. -/
def Reaches (n : Nat) (s : State) (P : State → Prop) : Prop := ∃ t, runSteps n s = .next t ∧ P t

theorem reaches_of_step {s t : State} {P : State → Prop} (h : step s = .next t) (k : P t) : Reaches 1 s P := by
  refine ⟨t, ?_, k⟩
  rw [runSteps, h]
  rfl

theorem runSteps_add (m n : Nat) (s : State) : runSteps (m + n) s = andThen (runSteps m s) (runSteps n) := by
  induction m generalizing s with
  | zero => rw [Nat.zero_add]; rfl
  | succ m ih =>
    rw [Nat.succ_add, runSteps, runSteps]
    cases step s with
    | next t => exact ih t
    | fault => rfl
    | refused => rfl

/-- One run after the other. -/
theorem Reaches.bind {m n : Nat} {s : State} {P Q : State → Prop} (h : Reaches m s P) (k : ∀ t, P t → Reaches n t Q) :
    Reaches (m + n) s Q := by
  obtain ⟨t, run, ht⟩ := h
  obtain ⟨u, run', hu⟩ := k t ht
  exact ⟨u, by rw [runSteps_add, run]; exact run', hu⟩

/-! ### Words and fields -/

/-- The word of a command that is addressed with an RCA (30_encoding.md R90, R99). -/
theorem word_of_rcaArg {rk : RespKind} {dir : Dir} {index : BitVec 6} {head : BitVec 16}
    (upper : 0#3 ++ rk.code ++ dir.code ++ 0#2 ++ index = head) (rca : BitVec 16) :
    (Descriptor.mk rk dir index (rcaArg rca)).word = head ++ rca ++ 0#16 := by
  rw [Descriptor.word, upper, rcaArg]
  grind

theorem word_appCmd (rca : BitVec 16) : (cdAppCmd rca).word = 0x0437#16 ++ rca ++ 0#16 := word_of_rcaArg (by decide) rca

theorem word_sendCsd (rca : BitVec 16) : (cdSendCsd rca).word = 0x0C09#16 ++ rca ++ 0#16 := word_of_rcaArg (by decide) rca

theorem word_selectCard (rca : BitVec 16) : (cdSelectCard rca).word = 0x0807#16 ++ rca ++ 0#16 := word_of_rcaArg (by decide) rca

theorem word_sendStatus (rca : BitVec 16) : (cdSendStatus rca).word = 0x040D#16 ++ rca ++ 0#16 := word_of_rcaArg (by decide) rca

/-- A CSD of version 2 whose size field is not all ones gives a capacity (42_response_parser.md R186, R187). -/
theorem usableSectors_version2 {f : Csd} (version2 : f.layout = 1) (fits : f.cSizeV2 ≠ 0x3FFFFF) :
    usableSectors f false = some (BitVec.ofNat 32 ((f.cSizeV2.toNat + 1) * 1024)) := by
  cases usable : usableSectors f false with
  | none =>
    rw [usableSectors_sd_eq_none_iff, version2] at usable
    obtain h | h | ⟨h, _⟩ | ⟨_, h⟩ := usable
    · cases h
    · cases h
    · cases h
    · exact absurd h fits
  | some n =>
    have capacity := (csdSectors_version2 version2).symm.trans (usableSectors_eq_some usable)
    change some ((f.cSizeV2.toNat + 1) * 1024) = some n.toNat at capacity
    rw [Option.some.inj capacity, BitVec.ofNat_toNat, BitVec.setWidth_eq]

/-! ### Request and guards -/

/-- The word of `init` as the host presents it (30_encoding.md R86). -/
theorem decode_initWord (app : Bool) (p : Port) : decode app (.hr (0#8 ++ devNumOf p ++ 0#48) .null) = .ok (.init (devNumOf p) 0 0) := by
  have word : 0#8 ++ devNumOf p ++ 0#48 = hostWord .init (devNumOf p) 0 0 := by cases p <;> rfl
  rw [word]
  exact decodeHost_hostWord .init (devNumOf p) 0 0 .null

theorem samplePins_of_silent {s : State} (h : s.env.pins = []) : s.samplePins = s := by
  rw [State.samplePins, h]

section
variable {s₀ s : State} {p : Port} {w : Slot} {answers : List CardAnswer} {waits : List BusyAnswer}
  {sent : List (Port × BitVec 48)} {r r' r'' : Words4}

/-- The working slot after A1 (R203). -/
def Slot.atIdentification : Slot := { Slot.zero with clockHz := 400000, busWidth := 1 }

/-- Acceptance, the guards and A1 (R200 to R203). -/
theorem reaches_a2 (sound : s.Sound) (idle : s.seq.busy = false) (absent : s.slot.get p = Slot.zero) (pins : s.env.pins = [])
    (card : s.pin.present.get p = true) (fetch : s.fetch = some (.hr (0#8 ++ devNumOf p ++ 0#48) .null)) :
    Reaches 3 s (Underway s p ⟨.a2, Slot.atIdentification, s.env.answers, s.env.busy, []⟩) := by
  obtain ⟨⟨_, ⟨free, _, _⟩, _⟩, _⟩ := (sound_iff s).1 sound
  have accepted : step s = .next (accept ⟨.init, devNumOf p, 0, 0, .null⟩ .iGuard { s with fetch := none }) := by
    rw [step_of_decode_ok fetch (decode_initWord _ p)]
    exact if_neg (by simp [idle])
  refine (reaches_of_step (P := (· = _)) accepted rfl).bind (n := 2) ?_
  rintro _ rfl
  obtain ⟨_, _, _, started⟩ := initGuards (accept ⟨.init, devNumOf p, 0, 0, .null⟩ .iGuard { s with fetch := none })
    ⟨rfl, rfl, free, rfl⟩ rfl
  rw [samplePins_of_silent (by exact pins)] at started
  refine (reaches_of_step (P := (· = _)) (started p rfl (by rw [accept, absent]; rfl) card) rfl).bind (n := 1) ?_
  rintro _ rfl
  refine reaches_of_step (State.At.step_eq (l := .a1) ⟨rfl, rfl, free, rfl⟩) ?_
  exact {
    here := ⟨rfl, rfl, free, rfl⟩
    op := rfl
    cur := rfl
    work := rfl
    sd := rfl
    programmed := programmedWith_program p _ _ _
    slot := rfl
    host := rfl
    cfg := rfl
    pin := rfl
    mem := rfl
    answers := rfl
    waits := rfl
    pins := pins
    sent := ⟨[.present p true, .setClock p 400000, .setWidth p 1], (List.append_assoc _ _ _).trans (List.append_assoc _ _ _), rfl⟩ }

/-! ### Stages A and B -/

theorem Underway.a2 (h : Underway s₀ p ⟨.a2, w, .good r :: answers, waits, sent⟩ s) :
    Reaches 1 s (Underway s₀ p ⟨.a3, w, answers, waits, sent ++ [(p, cdGoIdleState.word)]⟩) := by
  obtain ⟨u, run, ended, after⟩ := h.command (cd := cdGoIdleState) rfl rfl nofun
  obtain ⟨_, commands⟩ := stageA
  obtain ⟨next, _⟩ := commands s u
  refine reaches_of_step (next h.here run) ?_
  rw [if_pos ended.ok]
  exact after.goesTo .a3

theorem Underway.a3 (h : Underway s₀ p ⟨.a3, w, .good r :: answers, waits, sent⟩ s) (echo : r.w0.extractLsb 11 0 = 0x1AA) :
    Reaches 1 s fun t => Underway s₀ p ⟨.bSd, w, answers, waits, sent ++ [(p, cdSendIfCond.word)]⟩ t ∧ t.seq.tmp.sd2 = true := by
  obtain ⟨u, run, ended, after⟩ := h.command (cd := cdSendIfCond) rfl rfl nofun
  have word : u.ctl.resp.w0 = r.w0 := ended.resp
  obtain ⟨_, commands⟩ := stageA
  obtain ⟨_, probed⟩ := commands s u
  obtain ⟨matching, _⟩ := probed h.here run
  refine reaches_of_step (matching ended.ok (by rw [word, echo])) ⟨?_, rfl⟩
  exact after.startLoop.moveTo after.work

theorem Underway.bSd (h : Underway s₀ p ⟨.bSd, w, .good r :: .good r' :: answers, waits, sent⟩ s) (sd2 : s.seq.tmp.sd2 = true)
    (ready : r'.w0.getLsbD 31 = true) :
    Reaches 1 s fun t => Underway s₀ p ⟨.bDone, w, answers, waits,
      sent ++ [(p, (cdAppCmd w.rca).word), (p, (cdSdSendOpCond true s₀.cfg.vddWindow).word)]⟩ t ∧
        t.seq.tmp.sd2 = true ∧ t.seq.tmp.ocr = r'.w0 := by
  obtain ⟨u, run, seq, ok, resp, after⟩ := h.pair (cd := cdSdSendOpCond true s₀.cfg.vddWindow) rfl rfl nofun
  have word : u.ctl.resp.w0 = r'.w0 := resp
  have call : sendSdOpCond s.seq.tmp.sd2 s.cfg.vddWindow s = .next (u.setTmp { u.seq.tmp with ocr := u.ctl.resp.w0 }) := by
    rw [sd2, h.cfg]
    exact andThen_onOk run ok _
  obtain ⟨polls, _⟩ := operatingConditions
  obtain ⟨_, _, done, _⟩ := polls s _ h.here call
  refine reaches_of_step (done ok (by rw [← ready, ← word]; rfl)) ⟨?_, ?_, word⟩
  · exact after.moveTo after.work
  · exact (congrArg (·.tmp.sd2) seq).trans sd2

theorem Underway.bDone (h : Underway s₀ p ⟨.bDone, w, answers, waits, sent⟩ s) (sd2 : s.seq.tmp.sd2 = true)
    (overlap : s.seq.tmp.ocr &&& (0#8 ++ s₀.cfg.vddWindow ++ 0#8) ≠ 0) (hc : s.seq.tmp.ocr.getLsbD 30 = true) :
    Reaches 1 s (Underway s₀ p ⟨.c1, { w with kind := .sdhc, addressing := .block }, answers, waits, sent⟩) := by
  rw [← h.cfg] at overlap
  obtain ⟨_, _, sdhc, _⟩ := kindFromOcr s h.here overlap
  refine reaches_of_step (sdhc h.sd sd2 hc) ?_
  exact h.moveTo (by rw [h.work])

/-! ### Stages C, D and E -/

theorem Underway.c1 (h : Underway s₀ p ⟨.c1, w, .good r :: answers, waits, sent⟩ s) :
    Reaches 1 s (Underway s₀ p ⟨.c2, { w with cid := parseCid r }, answers, waits, sent ++ [(p, cdAllSendCid.word)]⟩) := by
  obtain ⟨u, run, ended, after⟩ := h.command (cd := cdAllSendCid) rfl rfl nofun
  obtain rfl : u.ctl.resp = r := ended.resp
  obtain rfl := after.work_eq
  obtain ⟨identified, _⟩ := identifyAndSelect s (u.setW { u.seq.w with cid := parseCid u.ctl.resp })
  refine reaches_of_step (identified h.here (andThen_onOk run ended.ok _)) ?_
  rw [if_pos (by exact ended.ok)]
  exact after.moveTo rfl

theorem Underway.c2 (h : Underway s₀ p ⟨.c2, w, .good r :: answers, waits, sent⟩ s) :
    Reaches 1 s (Underway s₀ p ⟨.d1, { w with rca := r.w0.extractLsb 31 16 }, answers, waits,
      sent ++ [(p, cdSendRelativeAddr.word)]⟩) := by
  obtain ⟨u, run, ended, after⟩ := h.command (cd := cdSendRelativeAddr) rfl rfl nofun
  have word : u.ctl.resp.w0 = r.w0 := ended.resp
  have call : exec (if s.seq.tmp.mmc then .setRelativeAddr s.cfg.mmcRca else .sendRelativeAddr) s =
      .next (u.setW { u.seq.w with rca := parseR6 u.ctl.resp.w0 }) := by
    rw [h.sd]
    exact andThen_onOk run ended.ok _
  obtain ⟨_, addressed, _⟩ := identifyAndSelect s (u.setW { u.seq.w with rca := parseR6 u.ctl.resp.w0 })
  refine reaches_of_step (addressed h.here call) ?_
  rw [if_pos (by exact ended.ok), ← word]
  obtain rfl := after.work_eq
  exact after.moveTo rfl

/-- The default clock, on the port and in the working slot (R214). -/
theorem Underway.defaultClock (h : Underway s₀ p ⟨.d1, w, answers, waits, sent⟩ s) :
    Underway s₀ p ⟨.d1, { w with clockHz := 25000000 }, answers, waits, sent⟩
      ((setClockRun s.seq.cur Config.clkDefaultHz s).setW { s.seq.w with clockHz := Config.clkDefaultHz }) := by
  obtain ⟨events, hist, commands⟩ := h.sent
  obtain rfl := h.work_eq
  exact { h with
    work := rfl
    programmed := by
      rw [h.cur]
      exact programmedWith_setClock h.programmed
    sent := ⟨events ++ [.setClock s.seq.cur Config.clkDefaultHz], by simp [hist], by simp [commands, sentCommand]⟩ }

theorem Underway.sampleSlider (h : Underway s₀ p ⟨.d1, w, answers, waits, sent⟩ s) :
    Underway s₀ p ⟨.d1, w, answers, waits, sent⟩ (sampleSlider s) := by
  unfold Machine.sampleSlider
  split
  · rw [wpPinRun, samplePins_of_silent h.pins]
    exact h.log rfl
  · exact h

/-- The slider of a card's port as the environment drives it; port 1 has none (10_state.md R46). -/
def State.sliderLevel (s : State) (p : Port) : Bool :=
  match p with
  | .p0 => s.pin.wp.p0
  | .p1 => false

theorem Underway.slider (h : Underway s₀ p ⟨.d1, w, answers, waits, sent⟩ s) : s.slider = s₀.sliderLevel p := by
  rw [slider_eq, h.cur, samplePins_of_silent h.pins, h.pin]
  rfl

/-- What D1 records of a CSD of version 2 (R216, R217). -/
def Slot.withCsd (w : Slot) (csd : BitVec 128) (slider : Bool) : Slot :=
  { w with
    ccc := csd.extractLsb 95 84
    writeProtect := 0#5 ++ csd.extractLsb 13 13 ++ csd.extractLsb 12 12 ++ BitVec.ofBool slider
    sectorCount := BitVec.ofNat 32 (((csd.extractLsb 69 48).toNat + 1) * 1024) }

theorem Underway.storeCsd (h : Underway s₀ p ⟨.d1, w, answers, waits, sent⟩ s) (version2 : s.seq.tmp.csd.extractLsb 127 126 = 1)
    (fits : s.seq.tmp.csd.extractLsb 69 48 ≠ 0x3FFFFF) :
    Underway s₀ p ⟨.e1, w.withCsd s.seq.tmp.csd (s₀.sliderLevel p), answers, waits, sent⟩ (storeCsd s) := by
  obtain rfl := h.work_eq
  obtain ⟨seq, _⟩ := sampleSlider_frame s
  have sectors := usableSectors_version2 (f := parseCsd s.seq.tmp.csd) version2 fits
  rw [Machine.storeCsd, h.sd, sectors, h.slider, recordCsd, wpBits_csd, seq]
  exact h.sampleSlider.moveTo rfl

theorem Underway.d1 (h : Underway s₀ p ⟨.d1, w, .good r :: answers, waits, sent⟩ s) (version2 : r.toBits.extractLsb 127 126 = 1)
    (fits : r.toBits.extractLsb 69 48 ≠ 0x3FFFFF) :
    Reaches 1 s (Underway s₀ p ⟨.e1, Slot.withCsd { w with clockHz := 25000000 } r.toBits (s₀.sliderLevel p), answers, waits,
      sent ++ [(p, (cdSendCsd w.rca).word)]⟩) := by
  obtain rfl := h.work_eq
  obtain ⟨u, run, ended, after⟩ := h.defaultClock.command (cd := cdSendCsd s.seq.w.rca) rfl rfl nofun
  obtain rfl : u.ctl.resp = r := ended.resp
  have next := h.here.step_after (l := .d1) rfl (andThen_onOk run ended.ok _)
  rw [if_pos (by exact ended.ok)] at next
  obtain ⟨_, _, _, pc⟩ := after.here
  have kept := after.moveTo (q := { u.seq with tmp := { u.seq.tmp with csd := u.ctl.resp.toBits } }) after.work (pc := pc)
  exact reaches_of_step next (kept.storeCsd version2 fits)

theorem Underway.e1 (h : Underway s₀ p ⟨.e1, w, .good r :: answers, .released :: waits, sent⟩ s) (unlocked : r.w0.getLsbD 25 = false) :
    Reaches 1 s (Underway s₀ p ⟨.gHs, w, answers, waits, sent ++ [(p, (cdSelectCard w.rca).word)]⟩) := by
  obtain ⟨u, run, ended, after⟩ := h.command (cd := cdSelectCard w.rca) rfl rfl fun _ => rfl
  have word : u.ctl.resp.w0 = r.w0 := ended.resp
  obtain rfl := h.work_eq
  obtain ⟨_, _, select⟩ := identifyAndSelect s u
  obtain ⟨_, _, selected⟩ := select h.here run
  refine reaches_of_step (selected ended.ok (by rw [word, unlocked])) ?_
  rw [h.sd]
  exact after.goesTo .gHs

/-! ### Stage G (44_mode_tuning.md R236, R239 to R243) -/

/-- A card without command class 10 is sent no SWITCH_FUNC and stays at the default clock. -/
theorem Underway.gHs (h : Underway s₀ p ⟨.gHs, w, answers, waits, sent⟩ s) (notCapable : w.ccc.getLsbD 10 = false)
    (sustains : s₀.cfg.sustainsDefaultClock = true) : Reaches 1 s (Underway s₀ p ⟨.gCd, w, answers, waits, sent⟩) := by
  obtain rfl := h.work_eq
  rw [← h.cfg] at sustains
  refine reaches_of_step (h.here.step_eq.trans ?_) (h.goesTo .gCd)
  rw [stepAt, stepGHs, h.sd, switchClass, notCapable, concludeHs, h.sd, sustains]
  rfl

theorem Underway.gCd (h : Underway s₀ p ⟨.gCd, w, .good r :: .good r' :: answers, waits, sent⟩ s) :
    Reaches 1 s (Underway s₀ p ⟨.gBw, w, answers, waits, sent ++ [(p, (cdAppCmd w.rca).word), (p, cdSetClrCardDetect.word)]⟩) := by
  obtain ⟨u, run, _, ok, _, after⟩ := h.pair (cd := cdSetClrCardDetect) rfl rfl nofun
  have next := h.here.step_after (l := .gCd) rfl run
  rw [if_pos ok] at next
  exact reaches_of_step next (after.goesTo .gBw)

/-- The 4-bit bus, on the port and in the working slot (R243). -/
theorem Underway.fourBit (h : Underway s₀ p ⟨.gBw, w, answers, waits, sent⟩ s) :
    Underway s₀ p ⟨.commit, { w with busWidth := 4 }, answers, waits, sent⟩
      (((setWidthRun s.seq.cur 4 s).setW { s.seq.w with busWidth := 4 }).goto .commit) := by
  obtain ⟨fetch, busy, free, _⟩ := h.here
  obtain ⟨events, hist, commands⟩ := h.sent
  obtain rfl := h.work_eq
  exact { h with
    here := ⟨fetch, busy, free, rfl⟩
    work := rfl
    programmed := by
      rw [h.cur]
      exact programmedWith_setWidth h.programmed
    sent := ⟨events ++ [.setWidth s.seq.cur 4], by simp [hist], by simp [commands, sentCommand]⟩ }

theorem Underway.gBw (h : Underway s₀ p ⟨.gBw, w, .good r :: .good r' :: .good r'' :: answers, waits, sent⟩ s)
    (good : statusOk r''.w0 = true) :
    Reaches 1 s (Underway s₀ p ⟨.commit, { w with busWidth := 4 }, answers, waits,
      sent ++ [(p, (cdAppCmd w.rca).word), (p, cdAcmdSetBusWidth.word)] ++ [(p, (cdSendStatus w.rca).word)]⟩) := by
  obtain ⟨u, run, _, ok, _, switched⟩ := h.pair (cd := cdAcmdSetBusWidth) rfl rfl nofun
  obtain ⟨v, run', ended, after⟩ := switched.command (cd := cdSendStatus w.rca) rfl rfl nofun
  have word : v.ctl.resp.w0 = r''.w0 := ended.resp
  have call : (if s.seq.tmp.mmc then execSwitch busWidthIndex 1 s else sendSdBusWidth s) = .next u := by
    rw [h.sd]
    exact run
  have check : execSendStatus u.seq.w.rca u = .next v := by
    rw [switched.work]
    exact run'
  have next := h.here.step_after (l := .gBw) rfl call
  rw [if_pos ok, check] at next
  refine reaches_of_step (next.trans (congrArg Host.Outcome.next (if_pos ⟨ended.ok, ?_⟩))) after.fourBit
  rw [after.sd, word]
  exact good

/-! ### Commit -/

/-- What the host finds when `init` has returned NONE (R221). -/
theorem Underway.commit (h : Underway s₀ p ⟨.commit, w, answers, waits, sent⟩ s) :
    Reaches 1 s fun t => t.seq.busy = false ∧ t.seq.pc = .idle ∧ t.host = { s₀.host with result := some (.status .none) } ∧
      t.slot.get p.other = s₀.slot.get p.other ∧ s₀.SameMemory t ∧ t.slot.get p = w ∧ t.ctl.ProgrammedWith p w.clockHz w.busWidth ∧
      (t.hist.drop s₀.hist.length).filterMap sentCommand = sent := by
  obtain ⟨t, run, slot, other, busy, pc, host, hist, ctl, _, mem, _⟩ := commitStep s h.here
  obtain ⟨events, hist', commands⟩ := h.sent
  rw [h.cur, h.work] at slot
  rw [h.cur, h.slot] at other
  rw [h.host] at host
  refine reaches_of_step run ⟨busy, pc, host, other, fun a => ?_, slot, ?_, ?_⟩
  · rw [mem a, h.mem]
  · rw [ctl]
    exact h.programmed
  · rw [hist, hist', List.append_assoc, List.drop_left, List.filterMap_append, commands]
    exact List.append_nil _

end

/-- Settles O60: three steps to A2, then one step per label, each by its lemma. -/
theorem initBringsUpAnSdCard : Obligations.InitBringsUpAnSdCard := by
  intro s p r0 echo app1 ocr cid rca csd sel app2 acmd42 app3 acmd6 status answers busy ⟨sound, _⟩ idle absent pins card fetch script waits
    sustains echoes ready hc overlap version2 fits notCapable unlocked good
  have start := reaches_a2 sound idle absent pins card fetch
  rw [script, waits] at start
  have class10 : (csd.toBits.extractLsb 95 84).getLsbD 10 = false := by
    rw [← notCapable]
    simp
  obtain ⟨t, run, seqBusy, pc, host, other, mem, slot, programmed, sent⟩ : Reaches 15 s _ :=
    start.bind (n := 12) fun _ h => h.a2.bind (n := 11) fun _ h => (h.a3 echoes).bind (n := 10) fun _ ⟨h, sd2⟩ =>
    (h.bSd sd2 ready).bind (n := 9) fun _ ⟨h, sd2, kept⟩ =>
    (h.bDone sd2 (by rwa [kept]) (by rwa [kept])).bind (n := 8) fun _ h =>
    h.c1.bind (n := 7) fun _ h => h.c2.bind (n := 6) fun _ h => (h.d1 version2 fits).bind (n := 5) fun _ h =>
    (h.e1 unlocked).bind (n := 4) fun _ h => (h.gHs class10 sustains).bind (n := 3) fun _ h =>
    h.gCd.bind (n := 2) fun _ h => (h.gBw good).bind (n := 1) fun _ h => h.commit
  refine ⟨t, run, seqBusy, pc, host, other, mem, slot, programmed, ?_⟩
  refine (List.filterMap_congr fun e _ => by cases e <;> rfl).trans (sent.trans ?_)
  simp only [Slot.withCsd, Slot.atIdentification, word_sendCsd, word_selectCard, word_appCmd, word_sendStatus]
  rfl

end Sys2Proof.Machine
end

section
/-! The statements about mode tuning, stage G of `init` (44_mode_tuning.md): the card confirms first, then the controller and the working
slot change. -/

namespace Sys2Proof.Machine

section
variable {s u v : State}

/-- What stage G asks of the state in which a step began, and no command changes: the port, the path and the parameters. -/
structure SameCourse (s u : State) : Prop where
  cur : u.seq.cur = s.seq.cur
  mmc : u.seq.tmp.mmc = s.seq.tmp.mmc
  cfg : u.cfg = s.cfg

theorem Sent.sameCourse (h : Sent s u) : SameCourse s u := by
  obtain ⟨c, _⟩ := h
  exact ⟨c.cur, c.mmc, c.cfg⟩

theorem SameCourse.trans (h : SameCourse s u) (k : SameCourse u v) : SameCourse s v :=
  ⟨k.cur.trans h.cur, k.mmc.trans h.mmc, k.cfg.trans h.cfg⟩

theorem SameCourse.forgetScratch (h : SameCourse s u) : SameCourse s (forgetScratch u) := ⟨h.cur, h.mmc, h.cfg⟩

/-! ### High speed (R236 to R239) -/

/-- The function that the status block of SWITCH_FUNC selects is the low half of byte 16 (42_response_parser.md R190). -/
theorem switchConfirmed_iff (m : Memory) : switchConfirmed m = true ↔ (m.readByte 16).extractLsb 3 0 = 1 := by
  have low : ∀ b : Byte, (b &&& 0x0F == 1) = true ↔ b.extractLsb 3 0 = 1 := by decide
  exact low _

/-- Where stage G goes after high speed: an MMC has no card-detect pull-up to release (R240). -/
def State.afterHs (s : State) : Label := if s.seq.tmp.mmc then .gBw else .gCd

/-- The clock and its record stay as `u` has them; a controller that cannot sustain the default clock fails (R239, R245). `s` is the state
in which the step began. -/
def ClockStays (s u t : State) : Prop :=
  t.ctl = u.ctl ∧ t.hist = u.hist ∧ t.slot = u.slot ∧ t.mem = u.mem ∧ t.seq.w = u.seq.w ∧
    (s.cfg.sustainsDefaultClock = true → t.seq.pc = s.afterHs) ∧
    (s.cfg.sustainsDefaultClock = false → t.seq.pc = .fail ∧ t.seq.tmp.err = .switchHs)

/-- The clock of the current port is raised, and the working slot records it (R239). -/
def ClockRises (s u t : State) : Prop :=
  t.ctl.clk.get s.seq.cur = s.cfg.clkHsHz ∧ t.ctl.clk.get s.seq.cur.other = u.ctl.clk.get s.seq.cur.other ∧
    t.ctl.width = u.ctl.width ∧ t.hist = u.hist ++ [.setClock s.seq.cur s.cfg.clkHsHz] ∧ t.slot = u.slot ∧ t.mem = u.mem ∧
    t.seq.w = { u.seq.w with clockHz := s.cfg.clkHsHz } ∧ t.seq.pc = s.afterHs

theorem SameCourse.afterHs_eq (h : SameCourse s u) : u.afterHs = s.afterHs := by
  rw [State.afterHs, h.mmc, State.afterHs]

theorem concludeHs_false (h : SameCourse s u) : ClockStays s u (concludeHs false u) := by
  rw [ClockStays, ← h.afterHs_eq, ← h.cfg, concludeHs]
  cases u.cfg.sustainsDefaultClock
  · exact ⟨rfl, rfl, rfl, rfl, rfl, nofun, fun _ => ⟨rfl, rfl⟩⟩
  · exact ⟨rfl, rfl, rfl, rfl, rfl, fun _ => rfl, nofun⟩

theorem concludeHs_true (h : SameCourse s u) : ClockRises s u (concludeHs true u) := by
  rw [ClockRises, ← h.afterHs_eq, ← h.cfg, ← h.cur]
  exact ⟨pair_get_set_self _ _ _, pair_get_set_of_ne _ _ (port_other_ne _), rfl, rfl, rfl, rfl, rfl, rfl⟩

/-- `conclude` raises the clock exactly where the command ended well and the card's answer confirms the switch. -/
theorem concludeHs_of_iff (h : SameCourse s u) {ok answer : Prop} [Decidable ok] {confirmed : Bool} (asks : confirmed = true ↔ answer) :
    (ok ∧ answer → ClockRises s u (concludeHs (decide ok && confirmed) u)) ∧
      (¬(ok ∧ answer) → ClockStays s u (concludeHs (decide ok && confirmed) u)) := by
  have both : (decide ok && confirmed) = true ↔ ok ∧ answer := by rw [Bool.and_eq_true, decide_eq_true_iff, asks]
  refine ⟨fun yes => ?_, fun no => ?_⟩
  · rw [both.2 yes]
    exact concludeHs_true h
  · rw [Bool.eq_false_iff.2 (mt both.1 no)]
    exact concludeHs_false h

/-- A card that is not capable is sent no command (R236). -/
theorem stepGHs_incapable
    (incapable : (s.seq.tmp.mmc = true ∧ s.seq.tmp.hsCap = false) ∨ (s.seq.tmp.mmc = false ∧ s.seq.w.ccc.getLsbD 10 = false)) :
    stepGHs s = .next (concludeHs false s) := by
  obtain ⟨mmc, low⟩ | ⟨sd, low⟩ := incapable
  · rw [stepGHs, mmc, low]
    rfl
  · rw [stepGHs, sd, switchClass, low]
    rfl

theorem stepGHs_sd (sd : s.seq.tmp.mmc = false) (capable : s.seq.w.ccc.getLsbD 10 = true) : stepGHs s = hsSd s := by
  rw [stepGHs, sd, switchClass, capable]
  rfl

theorem stepGHs_mmc (mmc : s.seq.tmp.mmc = true) (capable : s.seq.tmp.hsCap = true) : stepGHs s = hsMmc s := by
  rw [stepGHs, mmc, capable]
  rfl

end

/-- Settles O42: each path ends in `conclude`, with the confirmation that its own commands have brought. -/
theorem highSpeedStep : Obligations.HighSpeedStep := by
  intro s here
  refine ⟨fun incapable => ?_, fun u sd capable ended => ?_, fun u mmc capable ended => ?_⟩
  · exact ⟨_, here.step_eq.trans (stepGHs_incapable incapable), concludeHs_false ⟨rfl, rfl, rfl⟩⟩
  · have course := (issue_sent _ _ _ _ s rfl u ended).sameCourse
    have next := here.step_after (stepGHs_sd sd capable) ended
    exact ⟨_, next, concludeHs_of_iff course.forgetScratch (switchConfirmed_iff _)⟩
  · have course := (issueCommand_sent s rfl u ended).sameCourse
    have next := here.step_after (stepGHs_mmc mmc capable) ended
    refine ⟨fun failed => ⟨_, next.trans (if_neg failed), concludeHs_false course⟩, fun v ok polled => ?_⟩
    have course' := course.trans (execSendStatus_sent _ u v polled).sameCourse
    rw [if_pos ok, show execSendStatus u.seq.w.rca u = .next v from polled] at next
    exact ⟨_, next, concludeHs_of_iff course' Iff.rfl⟩

/-! ### The 4-bit bus (R240 to R243) -/

/-- The switch to 4 bits, SWITCH for an MMC and ACMD6 for an SD card. -/
theorem busSwitch_sent (s : State) : Ensures (if s.seq.tmp.mmc then exec (.switch 183 1) s else sendSdBusWidth s) (Sent s) := by
  split
  · exact issueCommand_sent s rfl
  · exact acmd_sent _ _ s rfl rfl

/-- Settles O43: G_CD sends its pair; G_BW writes the width register only after the card's switch and a good status. -/
theorem fourBitSteps : Obligations.FourBitSteps := by
  refine fun s u => ⟨fun here ended => (here.step_after (l := .gCd) rfl ended :), fun here ended => ?_⟩
  have course := (busSwitch_sent s u ended).sameCourse
  have next := here.step_after (l := .gBw) rfl ended
  refine ⟨fun failed => next.trans (if_neg failed), fun v ok polled => ?_⟩
  have course' := course.trans (execSendStatus_sent _ u v polled).sameCourse
  rw [if_pos ok, show execSendStatus u.seq.w.rca u = .next v from polled] at next
  rw [next, ← course'.mmc, ← course'.cur]
  exact ⟨fun good => congrArg Host.Outcome.next (if_pos good), fun bad => congrArg Host.Outcome.next (if_neg bad)⟩

end Sys2Proof.Machine
end

section
/-! The guards of a transfer (45_block_transfer.md R251 to R256): which check decides, and what an admitted transfer stores. -/

namespace Sys2Proof.Machine

/-! ### The checks (R252 to R254) -/

/-- The blocks that a request asks for exist on the card, and the card can address them (R252, R253). -/
def Request.Fits (r : Request) (sl : Slot) : Prop :=
  r.count ≠ 0 ∧ r.sect.toNat + r.count.toNat ≤ sl.sectorCount.toNat ∧
    ¬(sl.addressing = .byte ∧ 2 ^ 31 < (r.sect.toNat + r.count.toNat) * 512)

/-- What a card accepts as its data address (R255). -/
def exactAddress (a : Addressing) (sect : Word) : Nat :=
  match a with
  | .block => sect.toNat
  | .byte => sect.toNat * 512

theorem Request.isRead_iff (r : Request) : r.isRead = true ↔ r.op = .readSectors := by
  rw [Request.isRead, beq_iff_eq]

theorem Request.isRead_eq_false_iff (r : Request) : r.isRead = false ↔ r.op ≠ .readSectors := by
  rw [Request.isRead, beq_eq_false_iff_ne]

section
variable {r : Request} {sl : Slot}

theorem Request.not_fits_iff : ¬r.Fits sl ↔ r.count = 0 ∨ sl.sectorCount.toNat < r.sect.toNat + r.count.toNat ∨
    (sl.addressing = .byte ∧ 2 ^ 31 < (r.sect.toNat + r.count.toNat) * 512) := by
  rw [Request.Fits, not_and_or, not_and_or, not_not, not_not, not_le]

/-- The checks of R252 and R253 come first and return one code. -/
theorem admission_of_not_fits (h : ¬r.Fits sl) : admission r sl = .invalParam := by
  unfold admission
  obtain empty | past | far := Request.not_fits_iff.1 h
  · rw [if_pos empty]
  · rw [if_pos past, ite_self]
  · rw [if_pos far, ite_self, ite_self]

/-- Past them write protection decides (R254). -/
theorem admission_of_fits (h : r.Fits sl) :
    admission r sl = if r.isRead = false ∧ sl.writeProtect ≠ 0 then .writeProt else .none := by
  obtain ⟨count, room, reach⟩ := h
  rw [admission, if_neg count, if_neg (not_lt.2 room), if_neg reach]

theorem admission_of_protected (h : r.Fits sl) (write : r.op ≠ .readSectors) (isProtected : sl.writeProtect ≠ 0) :
    admission r sl = .writeProt := by
  rw [admission_of_fits h, if_pos ⟨r.isRead_eq_false_iff.2 write, isProtected⟩]

theorem admission_of_admitted (h : r.Fits sl) (mayRun : r.op = .readSectors ∨ sl.writeProtect = 0) : admission r sl = .none := by
  rw [admission_of_fits h, if_neg]
  rintro ⟨write, isProtected⟩
  exact mayRun.elim (r.isRead_eq_false_iff.1 write) isProtected

/-- The byte address of a sector below 2 GiB does not wrap (R253, R255). -/
theorem cardAddress_toNat (h : r.Fits sl) : (cardAddress sl.addressing r.sect).toNat = exactAddress sl.addressing r.sect := by
  obtain ⟨_, _, reach⟩ := h
  cases mode : sl.addressing with
  | block => rfl
  | byte =>
    have small : r.sect.toNat * 512 < 2 ^ 32 := by
      have := not_and.1 reach mode
      omega
    exact (BitVec.toNat_mul _ _).trans (Nat.mod_eq_of_lt small)

end

/-- A window that is not empty, aligned and inside memory keeps its contract (20_memory.md R62, R65). -/
theorem rangeRefusal_eq_none {a n : Nat} {cfg : Config} (aligned : a % 4 = 0) (nonempty : 0 < n) (inside : a + n ≤ cfg.memBytes) :
    rangeRefusal a n cfg = none := by
  rw [rangeRefusal, if_neg (by simpa using aligned), if_neg (by omega)]

/-! ### The step -/

/-- The guards have found the port of the device. -/
def State.onPort (p : Port) (s : State) : State := { s with seq := { s.seq with cur := p } }

section
variable {s : State} {p : Port}

theorem stepTGuard_invalid (h : 1 < s.seq.op.devNum.toNat) :
    stepTGuard s = .next (hostReturn s.seq.op.op (.status .invalParam) s) := by
  rw [stepTGuard, portOf_eq_none h]

theorem stepTGuard_absent (device : s.seq.op.devNum = devNumOf p) (absent : (s.slot.get p).kind = .absent) :
    stepTGuard s = .next (hostReturn s.seq.op.op (.status .noCard) (s.onPort p)) := by
  simp only [stepTGuard, portOf_eq_some_iff.2 device, if_pos absent]
  rfl

/-- A failed check returns its code (R252 to R254). -/
theorem stepTGuard_returns (device : s.seq.op.devNum = devNumOf p) (present : (s.slot.get p).kind ≠ .absent) {e : ErrorCode}
    (check : admission s.seq.op (s.slot.get p) = e) (fails : e ≠ .none) :
    stepTGuard s = .next (hostReturn s.seq.op.op (.status e) (s.onPort p)) := by
  subst check
  simp only [stepTGuard, portOf_eq_some_iff.2 device, if_neg present, if_pos fails]
  rfl

/-- The buffer's contract is tested after the checks that return codes (R256). -/
theorem stepTGuard_refused (device : s.seq.op.devNum = devNumOf p) (present : (s.slot.get p).kind ≠ .absent)
    (check : admission s.seq.op (s.slot.get p) = .none) {e : Refusal}
    (range : rangeRefusal (bufferBase s.seq.op.buf s.cfg) (s.seq.op.count.toNat * 512) s.cfg = some e) :
    stepTGuard s = .refused e := by
  simp only [stepTGuard, portOf_eq_some_iff.2 device, if_neg present, if_neg (not_not.2 check), range]

/-- An admitted transfer goes to T_PRE with its card address and a fresh retry counter (R255). -/
theorem stepTGuard_admitted (device : s.seq.op.devNum = devNumOf p) (present : (s.slot.get p).kind ≠ .absent)
    (check : admission s.seq.op (s.slot.get p) = .none)
    (range : rangeRefusal (bufferBase s.seq.op.buf s.cfg) (s.seq.op.count.toNat * 512) s.cfg = none) :
    stepTGuard s = .next { s with seq := { s.seq with
      cur := p
      pc := .tPre
      tmp := { s.seq.tmp with arg := cardAddress (s.slot.get p).addressing s.seq.op.sect, retry := 0 } } } := by
  simp only [stepTGuard, portOf_eq_some_iff.2 device, if_neg present, if_neg (not_not.2 check), range]
  rfl

end

/-! ### The statements -/

/-- Settles O46: the device, its slot, then the checks of `admission` in their order. -/
theorem transferGuardOrder : Obligations.TransferGuardOrder := by
  intro s here
  rw [here.step_eq]
  refine ⟨stepTGuard_invalid, fun p device => ⟨stepTGuard_absent device, fun present bad => ?_, ?_⟩⟩
  · exact stepTGuard_returns device present (admission_of_not_fits (Request.not_fits_iff.2 bad)) (by decide)
  · intro present count room reach write isProtected
    exact stepTGuard_returns device present (admission_of_protected ⟨count, room, reach⟩ write isProtected) (by decide)

/-- Settles O47: past the checks only the buffer can refuse. -/
theorem transferAdmitted : Obligations.TransferAdmitted := by
  intro s p here r sl last base device present count room reach mayRun
  have fits : r.Fits sl := ⟨count, room, reach⟩
  have check := admission_of_admitted fits mayRun
  rw [here.step_eq]
  refine ⟨fun odd => ?_, fun aligned past => ?_, fun aligned inside => ⟨_, cardAddress_toNat fits, ?_⟩⟩
  · exact stepTGuard_refused device present check (rangeRefusal_misaligned odd _ _)
  · exact stepTGuard_refused device present check (rangeRefusal_range aligned (.inr past))
  · have blocks : 0 < r.count.toNat := Nat.pos_of_ne_zero fun zero => count (BitVec.eq_of_toNat_eq zero)
    exact stepTGuard_admitted device present check (rangeRefusal_eq_none aligned (Nat.mul_pos blocks (by decide)) inside)

end Sys2Proof.Machine
end

section
/-! The steps of a transfer past its guards, label by label (45_block_transfer.md R257 to R264): what each makes of the way its command
ended, and that none of them writes a slot, a clock or a width. -/

namespace Sys2Proof.Machine

/-! ### Commands and the return -/

/-- Every `issue` that has a next state keeps what `Issued` lists. -/
theorem issue_issued (p : Port) (cd : Descriptor) (bc bs : BitVec 16) (buf : PrimBuf) (s : State) :
    Ensures (issue p cd bc bs buf s) (Issued p s) := by
  rcases issue_cases p cd bc bs buf s with ⟨r, _, refused⟩ | ⟨_, run⟩
  · rw [refused]
    exact ensures_refused
  · rw [run]
    exact ensures_next (issueRun_issued p cd bc bs buf s)

theorem dataCommand_issued (s : State) : Ensures (dataCommand s) (Issued s.seq.cur s) := by
  unfold dataCommand
  split <;> split <;> exact issue_issued _ _ _ _ _ s

/-- The data command of a read, by its count (R259). -/
theorem dataCommand_read {s : State} (read : s.seq.op.op = .readSectors) : dataCommand s =
    exec (if 1 < s.seq.op.count.toNat then .readMultipleBlock s.seq.tmp.arg else .readSingleBlock s.seq.tmp.arg) s := by
  rw [dataCommand, if_pos ((Request.isRead_iff _).2 read)]
  split <;> rfl

/-- The data command of a write, by its count (R259). -/
theorem dataCommand_write {s : State} (write : s.seq.op.op ≠ .readSectors) : dataCommand s =
    exec (if 1 < s.seq.op.count.toNat then .writeMultipleBlock s.seq.tmp.arg else .writeBlock s.seq.tmp.arg) s := by
  rw [dataCommand, if_neg (mt (Request.isRead_iff _).1 write)]
  split <;> rfl

/-- SET_BLOCK_COUNT is in use for a multi-block transfer to an SD card, if the implementation uses it (R257). -/
theorem State.usesBlockCount_iff (s : State) : s.usesBlockCount = true ↔
    s.cfg.useCmd23 = true ∧ (s.curSlot.kind = .sdsc ∨ s.curSlot.kind = .sdhc) ∧ 1 < s.seq.op.count.toNat := by
  simp only [State.usesBlockCount, Bool.and_eq_true, Bool.or_eq_true, beq_iff_eq, decide_eq_true_iff, and_assoc]

/-- A command does not change whether SET_BLOCK_COUNT is in use. -/
theorem Issued.usesBlockCount {p : Port} {s t : State} (h : Issued p s t) : t.usesBlockCount = s.usesBlockCount := by
  rw [State.usesBlockCount, State.curSlot, h.slot, h.seq, h.cfg, State.usesBlockCount, State.curSlot]

theorem forgetBuffer_sameMemoryOutside (s : State) :
    s.SameMemoryOutside (bufferBase s.seq.op.buf s.cfg) (s.seq.op.count.toNat * 512) (forgetBuffer s) := fun a outside =>
  readByte_writeBytes_outside _ _ _ a (by simpa [State.freeBytes] using outside)

/-- The spec lemma of the return of a transfer past its guards (60_exceptions.md R301, 20_memory.md R79). -/
theorem transferReturn_returns (e : ErrorCode) (s : State) : s.TransferReturns e (transferReturn e s) := by
  unfold transferReturn
  by_cases spoils : e ≠ .none ∧ s.seq.op.isRead = true
  · rw [if_pos spoils]
    refine ⟨rfl, rfl, rfl, rfl, rfl, rfl, rfl, rfl, rfl, rfl, rfl, rfl, rfl, rfl, fun kept => ?_, forgetBuffer_sameMemoryOutside s⟩
    obtain ⟨failed, read⟩ := spoils
    exact absurd ((Request.isRead_iff _).1 read) (kept.resolve_left failed)
  · rw [if_neg spoils]
    exact ⟨rfl, rfl, rfl, rfl, rfl, rfl, rfl, rfl, rfl, rfl, rfl, rfl, rfl, rfl, fun _ _ => rfl, fun _ _ => rfl⟩

/-! ### T_DATA (R258, R266) -/

/-- What T_DATA makes of the end of its command. -/
def afterData (t : State) : State :=
  if t.ctl.tstatus = .ok then t.goto (if decide (1 < t.seq.op.count.toNat) && !t.usesBlockCount then .tStop else .tStatus)
  else if t.seq.op.isRead = true ∧ t.ctl.tstatus = .crc ∧ t.seq.tmp.retry < t.cfg.readCrcRetries then
    (t.setTmp { t.seq.tmp with retry := t.seq.tmp.retry + 1, err := .none }).goto
      (if decide (1 < t.seq.op.count.toNat) then .tRecover else .tPre)
  else if decide (1 < t.seq.op.count.toNat) then (t.setTmp { t.seq.tmp with err := .sectRw }).goto .tRecover
  else transferReturn .sectRw (t.setTmp { t.seq.tmp with err := .sectRw })

theorem stepTData_eq (s : State) : stepTData s = andThen (dataCommand s) fun t => .next (afterData t) := rfl

/-- A read that ended in a CRC error while the counter allows a retry (R258). -/
def State.Retries (t : State) : Prop :=
  t.seq.op.op = .readSectors ∧ t.ctl.tstatus = .crc ∧ t.seq.tmp.retry < t.cfg.readCrcRetries

section
variable {t : State}

theorem afterData_stop (ok : t.ctl.tstatus = .ok) (multi : 1 < t.seq.op.count.toNat) (unset : t.usesBlockCount = false) :
    afterData t = t.goesTo .tStop := by
  rw [afterData, if_pos ok, decide_eq_true multi, unset]
  rfl

theorem afterData_status (ok : t.ctl.tstatus = .ok) (ends : 1 < t.seq.op.count.toNat → t.usesBlockCount = true) :
    afterData t = t.goesTo .tStatus := by
  rw [afterData, if_pos ok, if_neg]
  · rfl
  · simpa using ends

theorem State.Retries.isRetry (h : t.Retries) :
    t.seq.op.isRead = true ∧ t.ctl.tstatus = .crc ∧ t.seq.tmp.retry < t.cfg.readCrcRetries :=
  ⟨(Request.isRead_iff _).2 h.1, h.2⟩

theorem afterData_retry (retry : t.Retries) : afterData t = { t with seq := { t.seq with
    pc := if 1 < t.seq.op.count.toNat then .tRecover else .tPre
    tmp := { t.seq.tmp with retry := t.seq.tmp.retry + 1, err := .none } } } := by
  have ⟨_, crc, _⟩ := retry
  rw [afterData, if_neg (by simp [crc]), if_pos retry.isRetry]
  simp only [decide_eq_true_iff]
  rfl

theorem afterData_recover (failed : t.ctl.tstatus ≠ .ok) (final : ¬t.Retries) (multi : 1 < t.seq.op.count.toNat) :
    afterData t = { t with seq := { t.seq with pc := .tRecover, tmp := { t.seq.tmp with err := .sectRw } } } := by
  rw [State.Retries, ← Request.isRead_iff] at final
  rw [afterData, if_neg failed, if_neg final, if_pos (decide_eq_true multi)]
  rfl

theorem afterData_returns (failed : t.ctl.tstatus ≠ .ok) (final : ¬t.Retries) (single : ¬1 < t.seq.op.count.toNat) :
    t.TransferReturns .sectRw (afterData t) := by
  rw [State.Retries, ← Request.isRead_iff] at final
  rw [afterData, if_neg failed, if_neg final, if_neg (by simpa using single)]
  exact transferReturn_returns .sectRw (t.setTmp _)

/-- After a failed data command no STOP_TRANSMISSION is sent from T_STOP: recovery sends its own (R260, R262). -/
theorem afterData_ne_tStop (failed : t.ctl.tstatus ≠ .ok) : (afterData t).seq.pc ≠ .tStop := by
  by_cases retry : t.Retries
  · rw [afterData_retry retry]
    dsimp only
    split <;> decide
  · by_cases multi : 1 < t.seq.op.count.toNat
    · rw [afterData_recover failed retry multi]
      nofun
    · obtain ⟨_, pc, _⟩ := afterData_returns failed retry multi
      rw [pc]
      nofun

end

/-! ### T_RECOVER (R262) -/

theorem leaveRecovery_retry {s : State} (retry : s.seq.tmp.err = .none) :
    leaveRecovery s = { s with seq := { s.seq with pc := .tPre, polling := false } } := if_pos retry

theorem leaveRecovery_returns {s : State} (final : s.seq.tmp.err ≠ .none) : s.TransferReturns s.seq.tmp.err (leaveRecovery s) := by
  have returned : leaveRecovery s = transferReturn s.seq.tmp.err { s with seq := { s.seq with polling := false } } := if_neg final
  rw [returned]
  exact transferReturn_returns _ { s with seq := { s.seq with polling := false } }

/-- What a poll of T_RECOVER makes of its end. -/
def afterPoll (t : State) : State :=
  if t.ctl.tstatus ≠ .ok ∨ (parseR1 t.ctl.resp.w0).state = stateTran then leaveRecovery t
  else if t.expired then leaveRecovery t.dropTimer
  else t.dropTimer

section
variable {t : State}

theorem afterPoll_ends (ends : t.ctl.tstatus ≠ .ok ∨ t.ctl.resp.w0.extractLsb 12 9 = 4) : afterPoll t = leaveRecovery t := if_pos ends

theorem afterPoll_waits (ok : t.ctl.tstatus = .ok) (waiting : t.ctl.resp.w0.extractLsb 12 9 ≠ 4) :
    afterPoll t = if t.expired then leaveRecovery t.dropTimer else t.dropTimer := if_neg (not_or.2 ⟨not_not.2 ok, waiting⟩)

end

theorem stepTRecover_stop {s : State} (entry : s.seq.polling = false) : stepTRecover s =
    andThen (execStopTransmission s) fun t => .next { t.startLoop with seq := { t.seq with polling := true } } := if_neg (by simp [entry])

theorem stepTRecover_poll {s : State} (polling : s.seq.polling = true) : stepTRecover s =
    andThen (execSendStatus s.curSlot.rca s) fun t => .next (afterPoll t) := if_pos polling

/-! ### The statements -/

/-- Settles O48: T_PRE and T_STOP go on or return, T_DATA by `afterData`. -/
theorem countAndStopSteps : Obligations.CountAndStopSteps := by
  intro s u multi preset arg
  have inUse : s.usesBlockCount = true ↔ preset := s.usesBlockCount_iff
  refine ⟨fun here => ⟨fun unset => ?_, fun set ended => ?_⟩, fun here ended => ?_, fun here ended => ?_⟩
  · exact here.step_eq.trans (if_neg (mt inUse.1 unset))
  · have next := here.step_after (l := .tPre) (if_pos (inUse.2 set)) ended
    exact ⟨fun ok => next.trans (congrArg _ (if_pos ok)),
      fun failed => ⟨_, next.trans (congrArg _ (if_neg failed)), transferReturn_returns _ u⟩⟩
  · have call : dataCommand s = .next u := by
      obtain ⟨read, run⟩ | ⟨write, run⟩ := ended
      · exact (dataCommand_read read).trans run
      · exact (dataCommand_write (by rw [write]; decide)).trans run
    have next := here.step_after (l := .tData) (stepTData_eq s) call
    have issued := dataCommand_issued s u call
    have count : u.seq.op.count = s.seq.op.count := by rw [issued.seq]
    rw [← issued.usesBlockCount] at inUse
    rw [next]
    refine ⟨fun ok ⟨many, unset⟩ => ?_, fun ok ends => ?_, fun failed => ⟨_, rfl, afterData_ne_tStop failed⟩⟩
    · exact congrArg _ (afterData_stop ok (by rwa [count]) (by rwa [← Bool.not_eq_true, inUse]))
    · refine congrArg _ (afterData_status ok fun many => inUse.2 ?_)
      rw [count] at many
      exact not_not.1 fun unset => ends ⟨many, unset⟩
  · have next := here.step_after (l := .tStop) rfl ended
    exact ⟨fun ok => next.trans (congrArg _ (if_pos ok)),
      fun failed => ⟨_, next.trans (congrArg _ (if_neg failed)), transferReturn_returns _ u⟩⟩

/-- Settles O49: the command that request and count select, then `afterData`. -/
theorem dataStep : Obligations.DataStep := by
  intro s u here r multi read transfer readMulti readSingle writeMulti writeSingle preset retries
  have call : dataCommand s = .next u := by
    by_cases isRead : read <;> by_cases many : multi
    · exact (dataCommand_read isRead).trans ((congrArg (exec · s) (if_pos many)).trans (readMulti isRead many))
    · exact (dataCommand_read isRead).trans ((congrArg (exec · s) (if_neg many)).trans (readSingle isRead many))
    · exact (dataCommand_write isRead).trans ((congrArg (exec · s) (if_pos many)).trans (writeMulti isRead many))
    · exact (dataCommand_write isRead).trans ((congrArg (exec · s) (if_neg many)).trans (writeSingle isRead many))
  have issued := dataCommand_issued s u call
  have inUse : u.usesBlockCount = true ↔ preset := by rw [issued.usesBlockCount, State.usesBlockCount_iff]
  have op : u.seq.op = r := by rw [issued.seq]
  have tmp : u.seq.tmp = s.seq.tmp := by rw [issued.seq]
  have retriesIff : u.Retries ↔ retries := by rw [State.Retries, op, tmp, issued.cfg]
  rw [here.step_after (l := .tData) (stepTData_eq s) call, ← retriesIff]
  have many : multi ↔ 1 < u.seq.op.count.toNat := by rw [op]
  rw [many]
  refine ⟨fun ok many unset => ?_, fun ok ends => ?_, fun retry many => ?_, fun retry single => ?_, fun failed final many => ?_,
    fun failed final single => ⟨_, rfl, afterData_returns failed final single⟩⟩
  · exact congrArg _ (afterData_stop ok many (by rwa [← Bool.not_eq_true, inUse]))
  · exact congrArg _ (afterData_status ok fun many => inUse.2 (ends.resolve_left (not_not.2 many)))
  · rw [afterData_retry retry, if_pos many, tmp]
  · rw [afterData_retry retry, if_neg single, tmp]
  · rw [afterData_recover failed final many]

/-- Settles O50: the entry sends CMD12, every later step polls and goes on by `afterPoll`. -/
theorem recoveryStep : Obligations.RecoveryStep := by
  intro s u here
  refine ⟨fun entry ended => (here.step_after (l := .tRecover) (stepTRecover_stop entry) ended :), fun polling ended => ?_⟩
  rw [here.step_after (l := .tRecover) (stepTRecover_poll polling) ended]
  refine ⟨fun ok waiting inTime => ?_, fun ends retry => ?_, fun ends final => ?_, fun ok waiting expired => ?_⟩
  · exact congrArg _ ((afterPoll_waits ok waiting).trans (if_neg (by simp [inTime])))
  · exact congrArg _ ((afterPoll_ends ends).trans (leaveRecovery_retry retry))
  · exact ⟨_, congrArg _ (afterPoll_ends ends), leaveRecovery_returns final⟩
  · rw [afterPoll_waits ok waiting, if_pos expired]
    exact ⟨fun retry => congrArg _ (leaveRecovery_retry retry),
      fun final => ⟨_, rfl, leaveRecovery_returns (s := u.dropTimer) final⟩⟩

/-- Settles O51: the three tests of `finalStatus`, one after the other. -/
theorem finalStatusStep : Obligations.FinalStatusStep := by
  intro s u here ended
  have next := here.step_after (l := .tStatus) rfl ended
  refine ⟨_, finalStatus u, next, transferReturn_returns _ u, fun failed => if_pos failed,
    fun ok bits => ?_, fun ok clean state => ?_, fun ok clean state => ?_⟩
  all_goals rw [finalStatus, if_neg (not_not.2 ok)]
  · exact if_pos bits
  · exact (if_neg (not_not.2 clean)).trans (if_pos state)
  · exact (if_neg (not_not.2 clean)).trans (if_neg (not_not.2 state))

/-! ### What no step of a transfer writes (R264) -/

/-- Slots, clocks and widths are as before, and so is which of them count as programmed. -/
structure BusKept (s t : State) : Prop where
  slot : t.slot = s.slot
  clk : t.ctl.clk = s.ctl.clk
  width : t.ctl.width = s.ctl.width
  clkSet : t.ctl.clkSet = s.ctl.clkSet
  widthSet : t.ctl.widthSet = s.ctl.widthSet

section
variable {s t u : State}

theorem BusKept.of_same (slot : t.slot = s.slot) (ctl : t.ctl = s.ctl) : BusKept s t := by
  constructor <;> simp only [slot, ctl]

theorem BusKept.trans (h : BusKept s t) (k : BusKept t u) : BusKept s u :=
  ⟨k.slot.trans h.slot, k.clk.trans h.clk, k.width.trans h.width, k.clkSet.trans h.clkSet, k.widthSet.trans h.widthSet⟩

theorem Issued.busKept {p : Port} (h : Issued p s t) : BusKept s t := ⟨h.slot, h.clk, h.width, h.clkSet, h.widthSet⟩

theorem State.TransferReturns.busKept {e : ErrorCode} (h : s.TransferReturns e t) : BusKept s t := by
  obtain ⟨_, _, _, _, _, _, _, slot, ctl, _⟩ := h
  exact .of_same slot ctl

theorem afterData_busKept (t : State) : BusKept t (afterData t) := by
  by_cases ok : t.ctl.tstatus = .ok
  · rw [afterData, if_pos ok]
    exact .of_same rfl rfl
  · by_cases retry : t.Retries
    · rw [afterData_retry retry]
      exact .of_same rfl rfl
    · by_cases multi : 1 < t.seq.op.count.toNat
      · rw [afterData_recover ok retry multi]
        exact .of_same rfl rfl
      · exact (afterData_returns ok retry multi).busKept

theorem leaveRecovery_busKept (t : State) : BusKept t (leaveRecovery t) := by
  by_cases retry : t.seq.tmp.err = .none
  · rw [leaveRecovery_retry retry]
    exact .of_same rfl rfl
  · exact (leaveRecovery_returns retry).busKept

theorem afterPoll_busKept (t : State) : BusKept t (afterPoll t) := by
  unfold afterPoll
  split
  · exact leaveRecovery_busKept t
  · split
    · exact BusKept.trans (t := t.dropTimer) (.of_same rfl rfl) (leaveRecovery_busKept _)
    · exact .of_same rfl rfl

/-- A label whose command is followed by a return or another label. -/
theorem busKept_of_issue {p : Port} {r : Step} {f : State → State} (sent : Ensures r (Issued p s)) (rest : ∀ t, BusKept t (f t)) :
    Ensures (andThen r fun t => .next (f t)) (BusKept s) :=
  sent.bind fun t issued => ensures_next (issued.busKept.trans (rest t))

theorem gotoOrReturn_busKept (l : Label) (e : ErrorCode) (t : State) :
    BusKept t (if t.ctl.tstatus = .ok then t.goto l else transferReturn e t) := by
  split
  · exact .of_same rfl rfl
  · exact (transferReturn_returns e t).busKept

theorem stepTGuard_busKept (s : State) : Ensures (stepTGuard s) (BusKept s) := by
  unfold stepTGuard
  dsimp only
  split
  · exact ensures_next (.of_same rfl rfl)
  · split
    · exact ensures_next (.of_same rfl rfl)
    · split
      · exact ensures_next (.of_same rfl rfl)
      · split
        · exact ensures_refused
        · exact ensures_next (.of_same rfl rfl)

theorem stepTPre_busKept (s : State) : Ensures (stepTPre s) (BusKept s) := by
  unfold stepTPre
  split
  · exact busKept_of_issue (issue_issued _ _ _ _ _ s) (gotoOrReturn_busKept _ _)
  · exact ensures_next (.of_same rfl rfl)

theorem stepTRecover_busKept (s : State) : Ensures (stepTRecover s) (BusKept s) := by
  cases polling : s.seq.polling with
  | false =>
    rw [stepTRecover_stop polling]
    exact busKept_of_issue (issue_issued _ _ _ _ _ s) fun t => .of_same rfl rfl
  | true =>
    rw [stepTRecover_poll polling]
    exact busKept_of_issue (issue_issued _ _ _ _ _ s) afterPoll_busKept

/-- The steps of a transfer, at its guards and past them. -/
theorem stepAt_busKept {l : Label} (transfer : l = .tGuard ∨ l.inTransfer = true) (s : State) : Ensures (stepAt l s) (BusKept s) := by
  cases l
  case tGuard => exact stepTGuard_busKept s
  case tPre => exact stepTPre_busKept s
  case tData => exact busKept_of_issue (dataCommand_issued s) afterData_busKept
  case tStop => exact busKept_of_issue (issue_issued _ _ _ _ _ s) (gotoOrReturn_busKept _ _)
  case tRecover => exact stepTRecover_busKept s
  case tStatus => exact busKept_of_issue (issue_issued _ _ _ _ _ s) fun t => (transferReturn_returns _ t).busKept
  all_goals exact transfer.elim nofun nofun

end

/-- Settles O56: an `issue` keeps slots and port registers, and what a step does after it does too. -/
theorem transfersOnlyReadTheSlot : Obligations.TransfersOnlyReadTheSlot := by
  intro s t fetch busy transfer next
  rw [step_of_fetch_none fetch, runSequencer, if_pos busy] at next
  split at next
  · cases next
  · have kept := stepAt_busKept transfer s t next
    exact ⟨kept.slot, kept.clk, kept.width, kept.clkSet, kept.widthSet⟩

end Sys2Proof.Machine
end

section
/-! A single-block transfer that the card serves well (45_block_transfer.md R271(a)): from request to return, on a coherent machine. -/

namespace Sys2Proof.Machine

/-! ### The answers that an `issue` takes -/

theorem moveBlock_answers (bc : BitVec 16) (s : State) : (moveBlock bc s).1.env.answers = s.env.answers := by
  have target : ∀ blk (t : State), (writeTarget blk t).env = t.env := fun blk t => by
    obtain ⟨_, _, _, env, _⟩ := writeTarget_frame blk t
    exact env
  rcases moveBlock_cases bc s with ⟨blk, _, _, run⟩ | ⟨_, run⟩ | ⟨_, run⟩ | ⟨st, _, run⟩ <;> rw [run]
  · simp [target]
  · rfl
  · simp [target]
  · rfl

theorem moveBlocks_answers (bc : BitVec 16) (n : Nat) (s : State) : (moveBlocks bc n s).1.env.answers = s.env.answers := by
  induction n generalizing s with
  | zero => rfl
  | succ n ih =>
    simp only [moveBlocks]
    split
    · exact (ih _).trans (moveBlock_answers bc s)
    · exact moveBlock_answers bc s

theorem dataPhase_answers (cd : Descriptor) (bc : BitVec 16) (r : State × TStatus) :
    (dataPhase cd bc r).1.env.answers = r.1.env.answers := by
  unfold dataPhase
  split
  · exact moveBlocks_answers bc _ _
  · rfl

/-- Every `issue` takes one answer of the card, for its response (40_controller_primitive.md R124). -/
theorem issueRun_answers (p : Port) (cd : Descriptor) (bc bs : BitVec 16) (buf : PrimBuf) (s : State) :
    (issueRun p cd bc bs buf s).env.answers = s.env.answers.tail := by
  obtain ⟨_, _, _, _, _, _, _, _, _, sent⟩ := dispatched_carriedLike p cd bc bs buf s
  obtain ⟨_, taken⟩ := receive_frame cd.rk s.nextAnswer (dispatched p cd bc bs buf s).dropAnswer
  obtain ⟨_, _, waited⟩ := waitPhase_frame cd (dataPhase cd bc (responsePhase cd.rk (dispatched p cd bc bs buf s)))
  calc (issueRun p cd bc bs buf s).env.answers
    _ = (answered cd bc (dispatched p cd bc bs buf s)).1.env.answers := by rw [issueRun, completeIssue_env]
    _ = (responsePhase cd.rk (dispatched p cd bc bs buf s)).1.env.answers := by rw [answered, waited, dataPhase_answers]
    _ = s.env.answers.tail := by rw [responsePhase_dispatched, taken, dropAnswer_env, sent]

theorem issue_answers (p : Port) (cd : Descriptor) (bc bs : BitVec 16) (buf : PrimBuf) (s : State) :
    Ensures (issue p cd bc bs buf s) fun u => u.env.answers = s.env.answers.tail := by
  rcases issue_cases p cd bc bs buf s with ⟨r, _, refused⟩ | ⟨_, run⟩
  · rw [refused]
    exact ensures_refused
  · rw [run]
    exact ensures_next (issueRun_answers p cd bc bs buf s)

theorem dataCommand_answers (s : State) : Ensures (dataCommand s) fun u => u.env.answers = s.env.answers.tail := by
  unfold dataCommand
  split <;> split <;> exact issue_answers _ _ _ _ _ s

/-- The words that a good answer leaves specified (10_state.md R41). -/
theorem State.Outcome.words_of_good {s : State} {cd : Descriptor} {st : TStatus} {words : List Word} {r : Words4}
    (outcome : s.Outcome cd st words) (awaited : cd.rk ≠ .none) (good : s.nextAnswer = .good r) : words = specifiedWords cd.rk st r := by
  rw [State.Outcome, if_neg awaited, good] at outcome
  exact outcome.1

/-! ### The request and how far it has come -/

/-- The request of one block at sector `sect`, with the buffer at `a`. -/
def singleRequest (op : HostOp) (p : Port) (sect : Word) (a : Nat) : Request := ⟨op, devNumOf p, 1, sect, .addr a⟩

/-- A coherent idle machine is presented a single-block transfer that its slot admits. -/
structure SingleBlock (op : HostOp) (p : Port) (sect : Word) (a : Nat) (s : State) : Prop where
  transfer : op = .readSectors ∨ op = .writeSectors
  coherent : s.Coherent
  idle : s.seq.busy = false
  present : (s.slot.get p).kind ≠ .absent
  fits : (singleRequest op p sect a).Fits (s.slot.get p)
  mayRun : op = .readSectors ∨ (s.slot.get p).writeProtect = 0
  aligned : a % 4 = 0
  inside : a + 512 ≤ s.cfg.memBytes
  fetch : s.fetch = some (.hr (hostWord op (devNumOf p) 1 sect) (.addr a))

/-- The request `r`, presented in `s₀` for the card in port `p`, has come to label `l`. -/
structure Transferring (s₀ : State) (p : Port) (r : Request) (l : Label) (s : State) : Prop where
  here : s.At l
  op : s.seq.op = r
  cur : s.seq.cur = p
  slot : s.slot = s₀.slot
  host : s.host = s₀.host
  cfg : s.cfg = s₀.cfg
  present : (s₀.slot.get p).kind ≠ .absent
  clkSet : s.ctl.clkSet.get p = true
  widthSet : s.ctl.widthSet.get p = true

/-- The request has returned NONE: `u` is the state in which its data command ended, `status` the card status that followed (R263). -/
structure Served (s₀ : State) (p : Port) (op : HostOp) (status : Word) (u t : State) : Prop where
  idle : t.seq.busy = false
  pc : t.seq.pc = .idle
  host : t.host = { s₀.host with result := some (.status .none) }
  slot : t.slot = s₀.slot
  mem : u.SameMemory t
  hist : t.hist = u.hist ++ [.cmd p ⟨.r1, .none, 13, (s₀.slot.get p).rca ++ 0#16⟩] ++ irqEvents s₀.cfg ++ [.resp .ok [status]] ++
    [.ret op (.status .none)]

/-- A single block needs no SET_BLOCK_COUNT (R257). -/
theorem usesBlockCount_of_single {s : State} (single : s.seq.op.count = 1) : s.usesBlockCount = false := by
  rw [← Bool.not_eq_true, State.usesBlockCount_iff, single]
  rintro ⟨_, _, many⟩
  exact absurd many (by decide)

/-! ### Step by step -/

section
variable {op : HostOp} {p : Port} {sect : Word} {a : Nat} {s s₀ u : State} {r : Request}

theorem SingleBlock.range (h : SingleBlock op p sect a s) : rangeRefusal a ((1 : BitVec 16).toNat * 512) s.cfg = none :=
  rangeRefusal_eq_none h.aligned (by decide) h.inside

/-- The request stands at its guards. -/
def requested (op : HostOp) (p : Port) (sect : Word) (a : Nat) (s : State) : State :=
  accept (singleRequest op p sect a) .tGuard { s with fetch := none }

theorem SingleBlock.accepted (h : SingleBlock op p sect a s) : step s = .next (requested op p sect a s) := by
  rw [step_of_decode_ok h.fetch (decodeHost_hostWord op _ _ _ _)]
  obtain rfl | rfl := h.transfer <;> exact if_neg (by simp [h.idle])

/-- Acceptance, the guards and T_PRE (R250 to R257). -/
theorem SingleBlock.reaches_tData (h : SingleBlock op p sect a s) :
    Reaches 3 s fun t => Transferring s p (singleRequest op p sect a) .tData t ∧
      t.seq.tmp.arg = cardAddress (s.slot.get p).addressing sect ∧ t.mem = s.mem ∧ t.hist = s.hist ∧ t.env = s.env := by
  obtain ⟨sound, slotsMatch, _⟩ := h.coherent
  obtain ⟨⟨_, ⟨free, _, _⟩, _⟩, _⟩ := (sound_iff s).1 sound
  obtain ⟨clkSet, widthSet, _⟩ := slotsMatch p h.present
  have atGuard : (requested op p sect a s).At .tGuard := ⟨rfl, rfl, free, rfl⟩
  have guarded := atGuard.step_eq.trans
    (stepTGuard_admitted (p := p) rfl h.present (admission_of_admitted h.fits h.mayRun) h.range)
  refine (reaches_of_step (P := (· = _)) h.accepted rfl).bind (n := 2) ?_
  rintro _ rfl
  refine (reaches_of_step (P := (· = _)) guarded rfl).bind (n := 1) ?_
  rintro t here
  have atPre : t.At .tPre := by
    rw [here]
    exact ⟨rfl, rfl, free, rfl⟩
  have single : t.seq.op.count = 1 := by
    rw [here]
    rfl
  refine reaches_of_step (atPre.step_eq.trans (if_neg (by simp [usesBlockCount_of_single single]))) ?_
  rw [here]
  exact ⟨⟨⟨rfl, rfl, free, rfl⟩, rfl, rfl, rfl, rfl, rfl, h.present, clkSet, widthSet⟩, rfl, rfl, rfl, rfl⟩

/-- Between the steps of a transfer the primitive may be called on its port: an initialized slot opens it (40_controller_primitive.md
R138). -/
theorem Transferring.ready {l : Label} (h : Transferring s₀ p r l s) : s.ready s.seq.cur = true := by
  obtain ⟨_, _, free, _⟩ := h.here
  rw [h.cur]
  simp [State.ready, State.portOpen, State.programmed, free, h.slot, h.present, h.clkSet, h.widthSet]

/-- A data command that ended well leads a single block to T_STATUS (R258). -/
theorem Transferring.tData (h : Transferring s₀ p r .tData s) (single : r.count = 1) (call : dataCommand s = .next u)
    (ok : u.ctl.tstatus = .ok) :
    step s = .next (u.goesTo .tStatus) ∧ Transferring s₀ p r .tStatus (u.goesTo .tStatus) := by
  have issued := dataCommand_issued s u call
  obtain ⟨fetch, busy, _, _⟩ := h.here
  have seq : u.seq.busy = s.seq.busy ∧ u.seq.op = s.seq.op ∧ u.seq.cur = s.seq.cur := by
    rw [issued.seq]
    exact ⟨rfl, rfl, rfl⟩
  obtain ⟨busy', op, cur⟩ := seq
  have one : ¬1 < u.seq.op.count.toNat := by
    rw [op, h.op, single]
    decide
  refine ⟨?_, ?_⟩
  · rw [h.here.step_after (l := .tData) (stepTData_eq s) call, afterData_status ok fun many => absurd many one]
  · exact {
      here := ⟨issued.fetch.trans fetch, busy'.trans busy, issued.busy, rfl⟩
      op := op.trans h.op
      cur := cur.trans h.cur
      slot := issued.slot.trans h.slot
      host := issued.host.trans h.host
      cfg := issued.cfg.trans h.cfg
      present := h.present
      clkSet := (congrArg (Pair.get · p) issued.clkSet).trans h.clkSet
      widthSet := (congrArg (Pair.get · p) issued.widthSet).trans h.widthSet }

/-- A card that reports no error in state `tran` ends the transfer with NONE (R263). -/
theorem Transferring.tStatus (h : Transferring s₀ p r .tStatus s) {status : Words4} {answers : List CardAnswer}
    (script : s.env.answers = .good status :: answers) (good : statusOk status.w0 = true) :
    Reaches 1 s (Served s₀ p r.op status.w0 s) := by
  obtain ⟨u, st, words, run, sent, seq⟩ := plainCommands (.sendStatus s.curSlot.rca) _ s rfl h.ready
  obtain ⟨outcome, ⟨_, ended, _, _, _, _, slot, _, host, _⟩, holds, hist, _, mem, _⟩ := sent
  have answer := nextAnswer_of_cons script
  obtain rfl : st = .ok := outcome.ok_of_good answer nofun
  obtain rfl : words = [status.w0] := outcome.words_of_good nofun answer
  have word : u.ctl.resp.w0 = status.w0 := holds status answer rfl
  obtain ⟨clean, tran⟩ := (statusOk_iff _).1 good
  obtain ⟨t, e, next, returned, _, _, _, none⟩ := finalStatusStep s u h.here run
  obtain rfl := none ended (by rw [word]; exact clean) (by rw [word]; exact tran)
  obtain ⟨idle, pc, _, _, _, host', hist', slot', _, _, _, _, _, _, mem', _⟩ := returned
  refine reaches_of_step next ⟨idle, pc, by rw [host', host, h.host], by rw [slot', slot, h.slot],
    fun x => (mem' (.inl rfl) x).trans (mem x), ?_⟩
  rw [hist', hist, seq, h.op, h.cur, h.cfg, State.curSlot, h.cur, h.slot]

/-- From a data command that ended well to the return. -/
theorem Transferring.served (h : Transferring s₀ p r .tData s) (single : r.count = 1)
    {first status : Words4} {answers : List CardAnswer} (script : s.env.answers = .good first :: .good status :: answers)
    (call : dataCommand s = .next u) (ok : u.ctl.tstatus = .ok) (good : statusOk status.w0 = true) :
    Reaches 2 s (Served s₀ p r.op status.w0 u) := by
  obtain ⟨next, atStatus⟩ := h.tData single call ok
  have left : u.env.answers = .good status :: answers := by rw [dataCommand_answers s u call, script, List.tail_cons]
  refine (reaches_of_step (P := (· = _)) next rfl).bind (n := 1) ?_
  rintro _ rfl
  obtain ⟨t, run, served⟩ := atStatus.tStatus left good
  exact ⟨t, run, { served with }⟩

end

/-! ### The statements -/

/-- Settles O58: three steps to the data command, which reads the block, and two to the return. -/
theorem singleBlockReadReturnsTheBlock : Obligations.SingleBlockReadReturnsTheBlock := by
  intro s p sect a r1 r2 blk answers blocks coherent idle present room reach aligned inside fetch script blockScript len good
  have h : SingleBlock .readSectors p sect a s :=
    ⟨.inl rfl, coherent, idle, present, ⟨show (1 : BitVec 16) ≠ 0 by decide, room, reach⟩, .inl rfl, aligned, inside, fetch⟩
  obtain ⟨v, run, atData, arg, mem, hist, env⟩ := h.reaches_tData
  obtain ⟨reads, _⟩ := dataCommandResults
  have target : bufferRefusal (primBuf v.seq.op.buf) ((1 : BitVec 16).toNat * (512 : BitVec 16).toNat) v.cfg = none := by
    rw [atData.op, atData.cfg]
    exact h.range
  have delivers : v.CardDelivers ⟨.r1, .read, 17, v.seq.tmp.arg⟩ 1 r1 [blk] := by
    refine ⟨nextAnswer_of_cons (by rw [env, script]), rfl, ⟨blocks, by rw [env, blockScript]; rfl⟩, ?_⟩
    rintro (waits | waits) <;> cases waits
  obtain ⟨u, ended, read, _⟩ := reads (.readSingleBlock v.seq.tmp.arg) _ _ _ _ v r1 [blk] rfl rfl atData.ready
    (by decide) (by decide) target delivers (by simpa using len)
  obtain ⟨⟨_, ok, _⟩, _, hist', _, _, bytes, outside⟩ := read
  rw [atData.op] at bytes outside hist'
  have call : dataCommand v = .next u := by
    rw [dataCommand_read (by rw [atData.op]; rfl), atData.op]
    exact ended
  obtain ⟨t, run', served⟩ := atData.served rfl (by rw [env, script]) call ok good
  refine ⟨t, v.seq.tmp.arg, ?_, served.idle, served.pc, served.host, ?_, ?_, served.slot, ?_, ?_⟩
  · rw [runSteps_add 3 2, run]
    exact run'
  · rw [readBytes_congr fun x _ _ => served.mem x]
    simpa [State.targetBytes, singleRequest, primBuf] using bytes
  · intro x hx
    rw [served.mem x, outside.2 x hx, mem]
  · rw [served.hist, hist', hist, atData.cur, atData.cfg]
    simp [singleRequest, primBuf, pathOf, specifiedWords]
  · rw [arg]
    exact cardAddress_toNat h.fits

/-- Settles O59: as for a read, but the data command hands out the buffer and waits for the card. -/
theorem singleBlockWriteSendsTheBuffer : Obligations.SingleBlockWriteSendsTheBuffer := by
  intro s p sect a r1 r2 bytes answers blocks busy coherent idle present writable room reach aligned inside fetch script blockScript
    busyScript good
  have h : SingleBlock .writeSectors p sect a s :=
    ⟨.inr rfl, coherent, idle, present, ⟨show (1 : BitVec 16) ≠ 0 by decide, room, reach⟩, .inr writable, aligned, inside, fetch⟩
  obtain ⟨v, run, atData, arg, mem, hist, env⟩ := h.reaches_tData
  obtain ⟨_, writes⟩ := dataCommandResults
  have target : bufferRefusal (primBuf v.seq.op.buf) ((1 : BitVec 16).toNat * 512) v.cfg = none := by
    rw [atData.op, atData.cfg]
    exact h.range
  have delivers : v.CardDelivers ⟨.r1, .write, 24, v.seq.tmp.arg⟩ 1 r1 [bytes] :=
    ⟨nextAnswer_of_cons (by rw [env, script]), rfl, ⟨blocks, by rw [env, blockScript]; rfl⟩, fun _ => by rw [env, busyScript]; rfl⟩
  obtain ⟨u, ended, written, _⟩ := writes (.writeBlock v.seq.tmp.arg) _ _ _ _ v r1 [bytes] rfl rfl atData.ready
    (by decide) target delivers
  obtain ⟨⟨_, ok, _⟩, _, hist', _, _, kept⟩ := written
  rw [atData.op] at hist'
  have call : dataCommand v = .next u := by
    rw [dataCommand_write (by rw [atData.op]; nofun), atData.op]
    exact ended
  obtain ⟨t, run', served⟩ := atData.served rfl (by rw [env, script]) call ok good
  refine ⟨t, v.seq.tmp.arg, ?_, served.idle, served.pc, served.host, ?_, served.slot, ?_, ?_⟩
  · rw [runSteps_add 3 2, run]
    exact run'
  · intro x
    rw [served.mem x, kept x, mem]
  · rw [served.hist, hist', hist, atData.cur, atData.cfg]
    simp [singleRequest, primBuf, pathOf, specifiedWords, State.targetBytes, mem]
  · rw [arg]
    exact cardAddress_toNat h.fits

end Sys2Proof.Machine
end

section
/-! The requests of one step (46_lifecycle_accessors.md): `deinit`, the accessors, and what they and the transfers return once the slot is
zeroed. -/

namespace Sys2Proof.Machine

/-! ### A request of one step -/

/-- The request `q` has been accepted at label Q and has returned `res`; `s` holds all else that it did. -/
def returned (q : Request) (res : Result) (s : State) : State := hostReturn q.op res (accept q .q s)

theorem whenIdle_of_idle {s : State} (idle : s.seq.busy = false) (r : Step) : whenIdle s r = r := if_neg (by simp [idle])

section
variable {s : State} {d : BitVec 8} {c : BitVec 16} {n : Word}

theorem exec_deinit (idle : s.seq.busy = false) : exec (.deinit d c n) s = .next ((portOf d).elim
    (returned ⟨.deinit, d, c, n, .null⟩ (.status .invalParam) s)
    fun p => returned ⟨.deinit, d, c, n, .null⟩ (.status .none) (s.setSlot p Slot.zero)) := by
  refine (whenIdle_of_idle idle _).trans ?_
  rw [runDeinit, accept_seq]
  cases portOf d <;> rfl

theorem exec_getDevInfo (idle : s.seq.busy = false) : exec (.getDevInfo d c n) s = .next ((portOf d).elim
    (returned ⟨.getDevInfo, d, c, n, .null⟩ (.status .invalParam) s)
    fun p => returned ⟨.getDevInfo, d, c, n, .null⟩ (.status .none) { s with host := { s.host with devInfo := s.slot.get p } }) := by
  refine (whenIdle_of_idle idle _).trans ?_
  rw [runGetDevInfo, accept_seq]
  cases portOf d <;> rfl

theorem exec_getCid (idle : s.seq.busy = false) : exec (.getCid d c n) s = .next ((portOf d).elim
    (returned ⟨.getCid, d, c, n, .null⟩ (.status .invalParam) s)
    fun p => returned ⟨.getCid, d, c, n, .null⟩ (.status .none) { s with host := { s.host with cid := (s.slot.get p).cid } }) := by
  refine (whenIdle_of_idle idle _).trans ?_
  rw [runGetCid, accept_seq]
  cases portOf d <;> rfl

theorem exec_getSectors (idle : s.seq.busy = false) : exec (.getSectors d c n) s = .next (returned ⟨.getSectors, d, c, n, .null⟩
    (.word ((portOf d).elim 0 fun p => (s.slot.get p).sectorCount)) s) := by
  refine (whenIdle_of_idle idle _).trans ?_
  rw [runGetSectors, accept_seq]
  cases portOf d <;> rfl

/-! ### `getWriteProtBits` (R279) -/

/-- No slot answers for the device number: it is invalid, or its slot is absent. -/
def State.NoSlot (s : State) (d : BitVec 8) : Prop := 1 < d.toNat ∨ ∃ p, d = devNumOf p ∧ (s.slot.get p).kind = .absent

theorem exec_getWriteProtBits_noSlot (idle : s.seq.busy = false) (noSlot : s.NoSlot d) :
    exec (.getWriteProtBits d c n) s = .next (returned ⟨.getWriteProtBits, d, c, n, .null⟩ (.byte 0xFF) s) := by
  refine (whenIdle_of_idle idle _).trans ?_
  rw [runGetWriteProtBits, accept_seq]
  obtain invalid | ⟨p, device, absent⟩ := noSlot
  · simp only [portOf_eq_none invalid]
    rfl
  · simp only [portOf_eq_some_iff.2 device]
    exact congrArg Host.Outcome.next (if_pos absent)

/-- Port 1 has no slider to read (10_state.md R46). -/
theorem exec_getWriteProtBits_p1 (idle : s.seq.busy = false) (device : d = devNumOf .p1) (present : s.slot.p1.kind ≠ .absent) :
    exec (.getWriteProtBits d c n) s =
      .next (returned ⟨.getWriteProtBits, d, c, n, .null⟩ (.byte (s.slot.p1.writeProtect &&& 6)) s) := by
  refine (whenIdle_of_idle idle _).trans ?_
  rw [runGetWriteProtBits, accept_seq]
  simp only [portOf_eq_some_iff.2 device]
  exact congrArg Host.Outcome.next (if_neg present)

theorem wpLevel_accept (q : Request) (l : Label) (s : State) (p : Port) : (accept q l s).wpLevel p = s.wpLevel p := by
  cases p with
  | p0 => rw [State.wpLevel, State.wpLevel, accept, samplePins_withSeq]
  | p1 => rfl

/-- The pin read does not depend on the request in flight. -/
theorem wpPinRun_accept (q : Request) (l : Label) (s : State) (p : Port) :
    wpPinRun p (accept q l s) = accept q l (wpPinRun p s) := by
  rw [wpPinRun, wpLevel_accept, accept, samplePins_withSeq, accept, wpPinRun_seq]
  rfl

theorem exec_getWriteProtBits_p0 (idle : s.seq.busy = false) (device : d = devNumOf .p0) (present : s.slot.p0.kind ≠ .absent) :
    exec (.getWriteProtBits d c n) s = .next (returned ⟨.getWriteProtBits, d, c, n, .null⟩
      (.byte ((s.slot.p0.writeProtect &&& 6) ||| wpBits (s.wpLevel .p0) false false)) (wpPinRun .p0 s)) := by
  refine (whenIdle_of_idle idle _).trans ?_
  rw [runGetWriteProtBits, accept_seq]
  simp only [portOf_eq_some_iff.2 device, wpLevel_accept, wpPinRun_accept]
  exact congrArg Host.Outcome.next (if_neg present)

theorem wpBits_slider (slider : Bool) : wpBits slider false false = if slider then 1 else 0 := by cases slider <;> decide

end

/-! ### The statements about one request -/

/-- Settles O8: the device number is valid or it is not. -/
theorem deinitZeroesTheSlot : Obligations.DeinitZeroesTheSlot := by
  intro d c n s idle
  rw [exec_deinit idle]
  refine ⟨fun p device => ?_, fun invalid => ?_⟩
  · rw [portOf_eq_some_iff.2 device]
    rfl
  · rw [portOf_eq_none invalid]
    rfl

/-- Settles O9: the device number is valid or it is not. -/
theorem accessorsCopyOut : Obligations.AccessorsCopyOut := by
  intro d c n s idle
  rw [exec_getDevInfo idle, exec_getCid idle, exec_getSectors idle]
  refine ⟨fun p device => ?_, fun invalid => ?_⟩
  · rw [portOf_eq_some_iff.2 device]
    exact ⟨rfl, rfl, rfl⟩
  · rw [portOf_eq_none invalid]
    exact ⟨rfl, rfl, rfl⟩

/-- Settles O10: only an initialized slot of device 0 has its pin read. -/
theorem writeProtBitsReadTheSlider : Obligations.WriteProtBitsReadTheSlider := by
  intro d c n s idle
  refine ⟨exec_getWriteProtBits_noSlot idle, exec_getWriteProtBits_p1 idle, fun device present =>
    ⟨_, exec_getWriteProtBits_p0 idle device present, ?_⟩⟩
  rw [wpBits_slider]
  refine ⟨?_, ?_⟩
  · intro v level
    obtain rfl : v = s.wpLevel .p0 := level
    simp [returned]
  · simp [returned, State.SameMemory]

/-! ### After `deinit` (R281) -/

/-- A transfer of either direction, accepted on an absent slot, returns at its guards (45_block_transfer.md R251). -/
theorem step_transfer_absent {t : State} {p : Port} (fetch : t.fetch = none) (free : t.ctl.busy = false)
    (absent : (t.slot.get p).kind = .absent) (op : HostOp) (c : BitVec 16) (n : Word) (buf : HostBuf) :
    ∃ u, step (accept ⟨op, devNumOf p, c, n, buf⟩ .tGuard t) = .next u ∧ u.host.result = some (.status .noCard) ∧
      u.hist = t.hist ++ [.ret op (.status .noCard)] := by
  have atGuard : (accept ⟨op, devNumOf p, c, n, buf⟩ .tGuard t).At .tGuard := ⟨fetch, rfl, free, rfl⟩
  exact ⟨_, atGuard.step_eq.trans (stepTGuard_absent (p := p) rfl absent), rfl, rfl⟩

/-- What `deinit` leaves: an idle machine with a zeroed slot, the controller and the interface as they were. -/
theorem deinit_leaves {s t : State} {p : Port} {c : BitVec 16} {n : Word} (idle : s.seq.busy = false)
    (run : exec (.deinit (devNumOf p) c n) s = .next t) :
    t.slot.get p = Slot.zero ∧ t.seq.busy = false ∧ t.ctl = s.ctl ∧ t.fetch = s.fetch := by
  obtain ⟨zeroes, _⟩ := deinitZeroesTheSlot (devNumOf p) c n s idle
  rw [zeroes p rfl] at run
  cases run
  exact ⟨pair_get_set_self _ _ _, rfl, rfl, rfl⟩

/-- Settles O11: the accessors copy out of the zeroed slot (O9, O10), and a transfer returns at its guards. -/
theorem deinitLeavesSentinels : Obligations.DeinitLeavesSentinels := by
  intro p c n buf s t idle free fetch run
  obtain ⟨zero, idle', ctl, fetch'⟩ := deinit_leaves idle run
  rw [← ctl] at free
  rw [← fetch'] at fetch
  have absent : (t.slot.get p).kind = .absent := congrArg Slot.kind zero
  obtain ⟨copies, _⟩ := accessorsCopyOut (devNumOf p) 0 0 t idle'
  obtain ⟨info, cid, sectors⟩ := copies p rfl
  obtain ⟨allOnes, _⟩ := writeProtBitsReadTheSlider (devNumOf p) 0 0 t idle'
  obtain ⟨_, accepts⟩ := requestsAreAcceptedOneAtATime (devNumOf p) c n buf t
  obtain ⟨_, read, write⟩ := accepts idle'
  refine ⟨⟨_, info, rfl, zero⟩, ⟨_, cid, rfl, congrArg Slot.cid zero⟩, ⟨_, allOnes (.inr ⟨p, rfl, absent⟩), rfl⟩,
    ⟨_, sectors, ?_⟩, ?_, ?_⟩
  · exact congrArg (fun sl : Slot => some (Result.word sl.sectorCount)) zero
  · rw [read]
    exact step_transfer_absent fetch free absent .readSectors c n buf
  · rw [write]
    exact step_transfer_absent fetch free absent .writeSectors c n buf

end Sys2Proof.Machine
end

section
/-! The `init` failure path (60_exceptions.md R300): what its three steps leave, one after the other. -/

namespace Sys2Proof.Machine

/-- Steps 1 and 2 of the path: the controller is reset and the slot that `init` ran on is zeroed. -/
def resetAndZero (s : State) : State := (ctlResetRun s).setSlot s.seq.cur Slot.zero

theorem initFailure_eq (s : State) : initFailure s =
    hostReturn .init (.status s.seq.tmp.err) (forgetRequest (restorePort s.seq.cur.other (resetAndZero s))) := rfl

/-- After the reset no port counts as programmed (40_controller_primitive.md R137). -/
theorem resetAndZero_unprogrammed (s : State) (p : Port) :
    (resetAndZero s).ctl.clkSet.get p = false ∧ (resetAndZero s).ctl.widthSet.get p = false := by
  cases p <;> exact ⟨rfl, rfl⟩

section
variable {o p : Port} {s : State}

theorem restorePort_of_absent (absent : (s.slot.get o).kind = .absent) : restorePort o s = s := if_pos absent

theorem restorePort_of_present (present : (s.slot.get o).kind ≠ .absent) :
    restorePort o s = setWidthRun o (s.slot.get o).busWidth (setClockRun o (s.slot.get o).clockHz s) := if_neg present

/-- Restoring a port writes the arbiter, its clock and width, and the history. -/
theorem restorePort_frame (o : Port) (s : State) :
    (restorePort o s).ctl.irqPending = s.ctl.irqPending ∧ (restorePort o s).ctl.busy = s.ctl.busy ∧ (restorePort o s).de = s.de ∧
      (restorePort o s).host = s.host ∧ (restorePort o s).mem = s.mem ∧ (restorePort o s).fetch = s.fetch := by
  unfold restorePort
  split <;> exact ⟨rfl, rfl, rfl, rfl, rfl, rfl⟩

/-- The other port keeps its setting (40_controller_primitive.md R135). -/
theorem restorePort_other (other : p ≠ o) :
    (restorePort o s).ctl.clkSet.get p = s.ctl.clkSet.get p ∧ (restorePort o s).ctl.widthSet.get p = s.ctl.widthSet.get p := by
  unfold restorePort
  split
  · exact ⟨rfl, rfl⟩
  · exact ⟨pair_get_set_of_ne _ _ other, pair_get_set_of_ne _ _ other⟩

end

/-- Settles O45: reset, zeroed slot, other port restored from its slot, which the reset does not touch, and the return. -/
theorem initFailurePath : Obligations.InitFailurePath := by
  intro s here
  obtain ⟨fetch, _⟩ := id here
  have kept : (resetAndZero s).slot.get s.seq.cur.other = s.slot.get s.seq.cur.other := pair_get_set_of_ne _ _ (port_other_ne _)
  have slot := restorePort_slot s.seq.cur.other (resetAndZero s)
  obtain ⟨irq, free, de, host, mem, fetch'⟩ := restorePort_frame s.seq.cur.other (resetAndZero s)
  obtain ⟨clkSet, widthSet⟩ := restorePort_other (s := resetAndZero s) (port_other_ne s.seq.cur).symm
  obtain ⟨noClk, noWidth⟩ := resetAndZero_unprogrammed s s.seq.cur
  have run : step s = .next (initFailure s) := here.step_eq
  rw [initFailure_eq] at run
  refine ⟨_, run, ?_, ?_, irq, free, congrArg Engine.armed de, clkSet.trans noClk, widthSet.trans noWidth, rfl, rfl,
    congrArg (fun h : HostSide => { h with result := some (.status s.seq.tmp.err) }) host, fun a => congrArg (·.readByte a) mem,
    fetch'.trans fetch, fun absent => ?_, fun present => ?_⟩
  · exact (congrArg (·.get s.seq.cur) slot).trans (pair_get_set_self _ _ _)
  · exact (congrArg (·.get s.seq.cur.other) slot).trans kept
  · rw [← kept] at absent
    rw [restorePort_of_absent absent]
    obtain ⟨noClk', noWidth'⟩ := resetAndZero_unprogrammed s s.seq.cur.other
    exact ⟨noClk', noWidth', List.append_assoc _ _ _⟩
  · rw [← kept] at present ⊢
    refine ⟨restorePort_programmedWith present, ?_⟩
    rw [restorePort_of_present present]
    exact ⟨rfl, by simp [resetAndZero, ctlResetRun]⟩

end Sys2Proof.Machine
end

section
/-! Progress (60_exceptions.md R304): no step of a sound state faults, and no step of a coherent one is refused. One pass over the steps
serves both, as for the invariants: `C` says when a refusal is excluded. -/

namespace Sys2Proof.Machine

/-- `r` is no fault; where `C` holds it is no refusal either, so it gives a next state. -/
def Proceeds (C : Prop) (r : Step) : Prop :=
  match r with
  | .next _ => True
  | .refused _ => ¬C
  | .fault _ => False

section
variable {C : Prop} {r : Step} {s t : State}

/-! ### Rules -/

theorem proceeds_next (C : Prop) (s : State) : Proceeds C (.next s) := trivial

theorem Proceeds.exists_next (h : Proceeds C r) (c : C) : ∃ t, r = .next t := by
  cases r with
  | next t => exact ⟨t, rfl⟩
  | fault => exact h.elim
  | refused => exact absurd c h

theorem Proceeds.ne_fault (h : Proceeds C r) (f : Fault) : r ≠ .fault f := by
  rintro rfl
  exact h

/-- The rule of sequencing. -/
theorem Proceeds.bind {P : State → Prop} {f : State → Step} (h : Proceeds C r) (ends : Ensures r P)
    (k : ∀ t, P t → Proceeds C (f t)) : Proceeds C (andThen r f) := by
  cases r with
  | next t => exact k t (ends t rfl)
  | fault => exact h
  | refused => exact h

/-- What follows a command without another one always gives a next state. -/
theorem Proceeds.thenNext (h : Proceeds C r) (f : State → State) : Proceeds C (andThen r fun t => .next (f t)) :=
  h.bind (P := fun _ => True) (fun _ _ => trivial) fun t _ => proceeds_next C (f t)

theorem whenIdle_proceeds (h : Proceeds False r) : Proceeds False (whenIdle s r) := by
  unfold whenIdle
  split
  · exact id
  · exact h

theorem whenFree_proceeds (h : Proceeds False r) : Proceeds False (whenFree s r) := by
  unfold whenFree
  split
  · exact id
  · exact h

theorem whenOpen_proceeds {p : Port} (h : Proceeds False r) : Proceeds False (whenOpen p s r) := by
  refine whenFree_proceeds ?_
  split
  · exact h
  · exact id

/-! ### Commands -/

theorem issue_proceeds {p : Port} {cd : Descriptor} {bc bs : BitVec 16} {buf : PrimBuf}
    (accepted : C → issueRefusal p cd bc bs buf s = none) : Proceeds C (issue p cd bc bs buf s) := by
  rcases issue_cases p cd bc bs buf s with ⟨e, refused, run⟩ | ⟨_, run⟩ <;> rw [run]
  · intro c
    rw [accepted c] at refused
    cases refused
  · exact proceeds_next C _

theorem issueCommand_proceeds {p : Port} {cd : Descriptor} (noData : cd.dir = .none) (ready : C → s.ready p = true) :
    Proceeds C (issueCommand p cd s) :=
  issue_proceeds fun c => issueRefusal_noData p cd 0 0 .null s noData (ready c) rfl

theorem acmd_proceeds {p : Port} {rca : BitVec 16} {cd : Descriptor} (noData : cd.dir = .none) (ready : C → s.ready p = true) :
    Proceeds C (acmd p rca cd s) := by
  unfold acmd
  split
  · rename_i refused
    intro c
    rw [issueRefusal_noData p cd 0 0 .null s noData (ready c) rfl] at refused
    cases refused
  · exact proceeds_next C _

theorem appCommand_proceeds {cd : Descriptor} (noData : cd.dir = .none) : Proceeds False (appCommand cd s) := by
  unfold appCommand
  split
  · exact issueCommand_proceeds noData False.elim
  · exact acmd_proceeds noData False.elim

/-- A command of the sequencer leaves its port ready for the next one. -/
theorem Commanded.ready (h : Commanded s t) (quiet : s.ctl.Quiet s.de) (ready : s.ready s.seq.cur = true) :
    t.ready t.seq.cur = true := by
  obtain ⟨free, _⟩ := h.quiet quiet
  obtain ⟨free', _⟩ := quiet
  simp only [State.ready, State.portOpen, State.initRunningOn, State.programmed, free', h.slot, h.busy, h.op, h.cur, h.pc, h.clkSet,
    h.widthSet, free] at ready ⊢
  exact ready

/-! ### `init` past its guards -/

/-- Past A1 the port of `init` is open and programmed (40_controller_primitive.md R138, R121). -/
theorem InitAt.ready (h : InitAt C s.slot s.seq.pc s) (late : s.seq.pc.afterA1 = true) (c : C) : s.ready s.seq.cur = true := by
  obtain ⟨⟨_, ⟨_, ⟨free, _⟩, _⟩, _⟩, busy, op, _, _, programmed⟩ := h
  obtain ⟨clkSet, widthSet, _⟩ := programmed c late
  have past : s.seq.pc ≠ .idle ∧ s.seq.pc ≠ .iGuard := by
    constructor <;> intro pc <;> rw [pc] at late <;> cases late
  simp [State.ready, State.portOpen, State.initRunningOn, State.programmed, busy, free, op, clkSet, widthSet, past]

theorem stepIGuard_proceeds (s : State) : Proceeds C (stepIGuard s) := by
  unfold stepIGuard
  split
  · exact proceeds_next C _
  · split <;> exact proceeds_next C _

theorem stepBSd_proceeds (ready : C → s.ready s.seq.cur = true) : Proceeds C (stepBSd s) := by
  refine Proceeds.bind (P := fun _ => True) ((acmd_proceeds rfl ready).thenNext _) (fun _ _ => trivial) fun t _ => ?_
  split <;> exact proceeds_next C _

theorem stepBDone_proceeds (s : State) : Proceeds C (stepBDone s) := by
  unfold stepBDone
  dsimp only
  split <;> exact proceeds_next C _

theorem stepC2_proceeds (ready : C → s.ready s.seq.cur = true) : Proceeds C (stepC2 s) := by
  refine Proceeds.thenNext ?_ _
  split <;> exact (issueCommand_proceeds rfl ready).thenNext _

/-- The default clock programs a port that is programmed already. -/
theorem stepD1_proceeds (ready : C → s.ready s.seq.cur = true) : Proceeds C (stepD1 s) := by
  refine Proceeds.thenNext ((issueCommand_proceeds rfl fun c => ?_).thenNext _) _
  have before := ready c
  simp only [State.ready, State.portOpen, State.initRunningOn, State.programmed, Bool.and_eq_true] at before ⊢
  obtain ⟨⟨free, isOpen⟩, _, widthSet⟩ := before
  exact ⟨⟨free, isOpen⟩, pair_get_set_self _ _ _, widthSet⟩

theorem stepF1_proceeds (ready : C → s.ready s.seq.cur = true) : Proceeds C (stepF1 s) :=
  (issue_proceeds fun c => issueRefusal_data _ _ _ _ _ s (ready c) (by decide) (by decide) rfl).thenNext _

/-- The status block of SWITCH_FUNC fits the scratch (00_scope.md R7). -/
theorem hsSd_proceeds (ready : C → s.ready s.seq.cur = true) (usable : C → s.ConfigUsable) : Proceeds C (hsSd s) := by
  refine (issue_proceeds fun c => ?_).thenNext _
  obtain ⟨atLeast, atMost⟩ := usable c
  refine issueRefusal_data _ _ _ _ _ s (ready c) (by decide) (fun zero => ?_) (if_pos ?_)
  · rw [zero] at atLeast
    exact absurd atLeast (by decide)
  · rw [show (1 : BitVec 16).toNat = 1 from rfl, Nat.one_mul]
    exact atMost

/-- SEND_STATUS after a switch command: the port is as ready as before. -/
theorem sendStatus_proceeds (quiet : s.ctl.Quiet s.de) (ready : C → s.ready s.seq.cur = true) (sent : Sent s t) (rca : BitVec 16) :
    Proceeds C (execSendStatus rca t) :=
  issueCommand_proceeds rfl fun c => sent.1.ready quiet (ready c)

theorem hsMmc_proceeds (quiet : s.ctl.Quiet s.de) (ready : C → s.ready s.seq.cur = true) : Proceeds C (hsMmc s) := by
  refine (issueCommand_proceeds rfl ready).bind (issueCommand_sent s rfl) fun t sent => ?_
  split
  · exact (sendStatus_proceeds quiet ready sent _).thenNext _
  · exact proceeds_next C _

theorem stepGHs_proceeds (quiet : s.ctl.Quiet s.de) (ready : C → s.ready s.seq.cur = true) (usable : C → s.ConfigUsable) :
    Proceeds C (stepGHs s) := by
  unfold stepGHs
  split <;> split
  · exact hsMmc_proceeds quiet ready
  · exact proceeds_next C _
  · exact hsSd_proceeds ready usable
  · exact proceeds_next C _

theorem stepGBw_proceeds (quiet : s.ctl.Quiet s.de) (ready : C → s.ready s.seq.cur = true) : Proceeds C (stepGBw s) := by
  have switches : Proceeds C (if s.seq.tmp.mmc then execSwitch busWidthIndex 1 s else sendSdBusWidth s) := by
    split
    · exact issueCommand_proceeds rfl ready
    · exact acmd_proceeds rfl ready
  refine switches.bind (busSwitch_sent s) fun t sent => ?_
  split
  · exact (sendStatus_proceeds quiet ready sent _).thenNext _
  · exact proceeds_next C _

theorem stepAt_init_proceeds (h : s.Sound) (k : C → s.Agrees) (busy : s.seq.busy = true) (hl : s.seq.pc.inInit = true)
    (usable : C → s.seq.pc = .gHs → s.ConfigUsable) : Proceeds C (stepAt s.seq.pc s) := by
  have here : InitAt C s.slot s.seq.pc s := .of_sound h k busy rfl hl
  have ready := here.ready
  obtain ⟨⟨_, quiet, _⟩, _⟩ := (sound_iff s).1 h
  cases pc : s.seq.pc <;> rw [pc] at hl ready usable
  case a1 | commit | fail => exact proceeds_next C _
  case a2 | a3 | e1 => exact (issueCommand_proceeds rfl (ready rfl)).thenNext _
  case bSd => exact stepBSd_proceeds (ready rfl)
  case bMmc | c1 => exact ((issueCommand_proceeds rfl (ready rfl)).thenNext _).thenNext _
  case bDone => exact stepBDone_proceeds s
  case c2 => exact stepC2_proceeds (ready rfl)
  case d1 => exact stepD1_proceeds (ready rfl)
  case f1 => exact stepF1_proceeds (ready rfl)
  case gHs => exact stepGHs_proceeds quiet (ready rfl) fun c => usable c rfl
  case gCd => exact (acmd_proceeds rfl (ready rfl)).thenNext _
  case gBw => exact stepGBw_proceeds quiet (ready rfl)
  all_goals cases hl

/-! ### Transfers -/

/-- The guards refuse a buffer that R62 or R65 forbids, and nothing else. -/
theorem stepTGuard_proceeds (range : C → rangeRefusal (bufferBase s.seq.op.buf s.cfg) (s.seq.op.count.toNat * 512) s.cfg = none) :
    Proceeds C (stepTGuard s) := by
  unfold stepTGuard
  dsimp only
  split
  · exact proceeds_next C _
  · split
    · exact proceeds_next C _
    · split
      · exact proceeds_next C _
      · split
        · rename_i refused
          intro c
          rw [range c] at refused
          cases refused
        · exact proceeds_next C _

/-- Past its guards a transfer has an open, programmed port (40_controller_primitive.md R138, 10_state.md R53). -/
theorem TransferAt.ready (h : TransferAt C s.slot s) (c : C) : s.ready s.seq.cur = true := by
  obtain ⟨⟨_, ⟨_, ⟨free, _⟩, _⟩, agree⟩, _, _, _, present, _⟩ := h
  obtain ⟨clkSet, widthSet, _⟩ := (agree c).1 _ present
  simp [State.ready, State.portOpen, State.programmed, free, present, clkSet, widthSet]

theorem bufferRefusal_primBuf (buf : HostBuf) (n : Nat) (cfg : Config) :
    bufferRefusal (primBuf buf) n cfg = rangeRefusal (bufferBase buf cfg) n cfg := by
  cases buf <;> rfl

/-- The data command moves at most the blocks that the guards have admitted. -/
theorem TransferAt.dataCommand_proceeds (h : TransferAt C s.slot s) : Proceeds C (dataCommand s) := by
  obtain ⟨_, _, _, _, _, count, range⟩ := id h
  have one : (1 : BitVec 16).toNat ≤ s.seq.op.count.toNat := by
    rw [show (1 : BitVec 16).toNat = 1 from rfl, Nat.one_le_iff_ne_zero]
    exact fun zero => count (BitVec.eq_of_toNat_eq zero)
  have moves : ∀ (cd : Descriptor) (n : BitVec 16), n ≠ 0 → n.toNat ≤ s.seq.op.count.toNat →
      Proceeds C (issue s.seq.cur cd n Config.blockSize (primBuf s.seq.op.buf) s) := by
    intro cd n nonzero le
    refine issue_proceeds fun c => issueRefusal_data _ _ _ _ _ s (h.ready c) nonzero (by decide) ?_
    rw [bufferRefusal_primBuf]
    exact rangeRefusal_mono (Nat.mul_le_mul_right 512 le) range
  unfold dataCommand
  split <;> split
  · exact moves _ _ count le_rfl
  · exact moves _ _ (by decide) one
  · exact moves _ _ count le_rfl
  · exact moves _ _ (by decide) one

theorem stepAt_transfer_proceeds (h : s.Sound) (k : C → s.Agrees) (busy : s.seq.busy = true) (hl : s.seq.pc.inTransfer = true) :
    Proceeds C (stepAt s.seq.pc s) := by
  have here : TransferAt C s.slot s := .of_sound h k busy hl
  have plain : ∀ {cd : Descriptor}, cd.dir = .none → Proceeds C (issueCommand s.seq.cur cd s) := fun noData =>
    issueCommand_proceeds noData here.ready
  cases pc : s.seq.pc <;> rw [pc] at hl
  case tPre =>
    change Proceeds C (stepTPre s)
    unfold stepTPre
    split
    · exact (plain rfl).thenNext _
    · exact proceeds_next C _
  case tData => exact here.dataCommand_proceeds.thenNext _
  case tRecover =>
    change Proceeds C (stepTRecover s)
    unfold stepTRecover
    split <;> exact (plain rfl).thenNext _
  case tStop | tStatus => exact (plain rfl).thenNext _
  all_goals cases hl

/-! ### The sequencer -/

theorem runSequencer_proceeds (h : s.Sound) (k : C → s.Agrees) (usable : C → s.seq.pc = .gHs → s.ConfigUsable)
    (range : C → s.seq.pc = .tGuard → rangeRefusal (bufferBase s.seq.op.buf s.cfg) (s.seq.op.count.toNat * 512) s.cfg = none) :
    Proceeds C (runSequencer s) := by
  obtain ⟨⟨_, ⟨free, _⟩, _⟩, sequencer⟩ := (sound_iff s).1 h
  unfold runSequencer
  split
  · rename_i busy
    rw [if_neg (by simp [free])]
    rw [State.SequencerSound, busy] at sequencer
    rcases sequencer with ⟨pc, _⟩ | ⟨pc, _⟩ | ⟨hl, _⟩ | ⟨hl, _⟩
    · rw [pc]
      exact stepIGuard_proceeds s
    · rw [pc]
      exact stepTGuard_proceeds fun c => range c pc
    · exact stepAt_init_proceeds h k busy hl usable
    · exact stepAt_transfer_proceeds h k busy hl
  · exact proceeds_next C _

end

/-! ### Presented operations -/

theorem getWord_proceeds (rk : RespKind) (s : State) : Proceeds False (getWord rk s) := by
  refine whenFree_proceeds ?_
  split <;> exact proceeds_next False _

/-- No operation faults, in whatever state it is presented. -/
theorem exec_proceeds (i : Instr) (s : State) : Proceeds False (exec i s) := by
  have command : ∀ {cd : Descriptor}, cd.dir = .none → Proceeds False (issueCommand s.seq.cur cd s) := fun noData =>
    issueCommand_proceeds noData False.elim
  cases i with
  | init | deinit | getDevInfo | getCid | getWriteProtBits | getSectors | readSectors | writeSectors =>
    exact whenIdle_proceeds (proceeds_next False _)
  | issue => exact (issue_proceeds False.elim).thenNext _
  | setClock p hz =>
    change Proceeds False (execSetClock p hz s)
    unfold execSetClock
    split
    · exact id
    · exact whenOpen_proceeds (proceeds_next False _)
  | setBusWidth p w =>
    change Proceeds False (execSetBusWidth p w s)
    unfold execSetBusWidth
    split
    · exact whenOpen_proceeds (proceeds_next False _)
    · exact id
  | cardPresent =>
    refine whenFree_proceeds ?_
    split
    · exact proceeds_next False _
    · exact id
  | writeProtectPin => exact whenOpen_proceeds (proceeds_next False _)
  | cmdResponseR1 | cmdResponseR1b | cmdResponseR3 | cmdResponseR6 | cmdResponseR7 => exact getWord_proceeds _ s
  | cmdResponseR2 =>
    refine whenFree_proceeds ?_
    split <;> exact proceeds_next False _
  | ctlReset => exact proceeds_next False _
  | goIdleState | sendIfCond | appCmd | selectCard | switch | sendStatus | setBlockCount | stopTransmission => exact command rfl
  | sdSendOpCond => exact (appCommand_proceeds rfl).thenNext _
  | sendOpCond | allSendCid | sendRelativeAddr | setRelativeAddr | sendCsd => exact (command rfl).thenNext _
  | setClrCardDetect | acmdSetBusWidth => exact appCommand_proceeds rfl
  | sendExtCsd | switchFunc | readSingleBlock | readMultipleBlock | writeBlock | writeMultipleBlock => exact issue_proceeds False.elim

/-- In a sound state the sequencer stands at a label that has a step (10_state.md R34). -/
theorem step_ne_fault {s : State} (h : s.Sound) (f : Fault) : step s ≠ .fault f := by
  cases hf : s.fetch with
  | none =>
    rw [step_of_fetch_none hf]
    exact (runSequencer_proceeds (C := False) h False.elim False.elim False.elim).ne_fault f
  | some w =>
    cases hd : decode (s.appPending s.seq.cur) w with
    | error e =>
      rw [step_of_decode_error hf hd]
      nofun
    | ok i =>
      rw [step_of_decode_ok hf hd]
      exact (exec_proceeds i _).ne_fault f

end Sys2Proof.Machine
end

section
/-! Every polling loop ends (60_exceptions.md R311, R312): a step at its label leaves it, or uses up one of TIMER's answers. -/

namespace Sys2Proof.Machine

/-! ### What a poll keeps -/

/-- The loop stands where it stood, and TIMER has not been asked. -/
structure SameLoop (s u : State) : Prop where
  pc : u.seq.pc = s.seq.pc
  polling : u.seq.polling = s.seq.polling
  budget : u.env.budget = s.env.budget
  fetch : u.fetch = s.fetch

/-- TIMER has been asked, and the loop goes on: there is a number of answers left, and fewer than before. -/
structure Polled (s t : State) : Prop where
  pc : t.seq.pc = s.seq.pc
  polling : t.seq.polling = s.seq.polling
  budget : ∃ k, t.env.budget = some k ∧ ∀ n, s.env.budget = some n → k < n
  fetch : t.fetch = s.fetch

section
variable {s t u : State}

theorem SameLoop.trans (h : SameLoop s t) (k : SameLoop t u) : SameLoop s u :=
  ⟨k.pc.trans h.pc, k.polling.trans h.polling, k.budget.trans h.budget, k.fetch.trans h.fetch⟩

theorem issueRun_sameLoop (p : Port) {cd : Descriptor} (noData : cd.dir = .none) (s : State) :
    SameLoop s (issueRun p cd 0 0 .null s) := by
  obtain ⟨_, seq⟩ := issueRun_noStore p cd 0 0 .null s (dir_ne_read noData)
  refine ⟨by rw [seq], by rw [seq], ?_, (issueRun_issued p cd 0 0 .null s).fetch⟩
  rw [issueRun_noData_env noData]

theorem issueCommand_sameLoop (p : Port) {cd : Descriptor} (noData : cd.dir = .none) (s : State) :
    Ensures (issueCommand p cd s) (SameLoop s) := by
  unfold issueCommand
  rcases issue_cases p cd 0 0 .null s with ⟨_, _, run⟩ | ⟨_, run⟩ <;> rw [run]
  · exact ensures_refused
  · exact ensures_next (issueRun_sameLoop p noData s)

theorem acmd_sameLoop (p : Port) (rca : BitVec 16) {cd : Descriptor} (noData : cd.dir = .none) (s : State) :
    Ensures (acmd p rca cd s) (SameLoop s) := by
  have first := issueRun_sameLoop p (cd := cdAppCmd rca) rfl s
  unfold acmd
  split
  · exact ensures_refused
  · refine ensures_next ?_
    unfold acmdRun afterAppCmd
    split
    · exact first.trans (issueRun_sameLoop p noData _)
    · exact first

theorem SameLoop.setTmp (h : SameLoop s u) (x : Temps) : SameLoop s (u.setTmp x) := ⟨h.pc, h.polling, h.budget, h.fetch⟩

theorem SameLoop.keepOcr (h : SameLoop s u) : Ensures (keepOcr u) (SameLoop s) := by
  unfold Machine.keepOcr onOk
  refine ensures_next ?_
  split
  · exact h.setTmp _
  · exact h

/-- An answer "not expired" uses up one of the answers that were left. -/
theorem SameLoop.polled (h : SameLoop s u) (inTime : ¬u.expired = true) : Polled s u.dropTimer := by
  refine ⟨h.pc, h.polling, ⟨u.budgetLeft - 1, rfl, fun n budget => ?_⟩, h.fetch⟩
  have left : u.budgetLeft = n := by rw [State.budgetLeft, h.budget, budget]
  rw [expired_iff, left] at inTime
  rw [left]
  exact Nat.sub_one_lt inTime

/-! ### One step at the label of a loop -/

theorem pollOcr_polls (h : SameLoop s u) (loop : s.seq.pc = .bSd ∨ s.seq.pc = .bMmc) :
    (pollOcr s.seq.pc u).seq.pc ≠ s.seq.pc ∨ Polled s (pollOcr s.seq.pc u) := by
  have away : s.seq.pc ≠ .bDone ∧ s.seq.pc ≠ .fail := by
    obtain pc | pc := loop <;> rw [pc] <;> exact ⟨nofun, nofun⟩
  obtain ⟨bDone, fail⟩ := away
  unfold pollOcr
  split
  · exact .inl bDone.symm
  · split
    · exact .inl fail.symm
    · rename_i inTime
      obtain ⟨_, polling, budget, fetch⟩ := h.polled inTime
      exact .inr ⟨rfl, polling, budget, fetch⟩

theorem stepBSd_polls (pc : s.seq.pc = .bSd) : Ensures (stepBSd s) fun t => t.seq.pc ≠ s.seq.pc ∨ Polled s t := by
  refine ((acmd_sameLoop _ _ rfl s).bind fun _ h => h.keepOcr).bind fun u h => ?_
  split
  · refine ensures_next (.inl ?_)
    rw [pc]
    nofun
  · refine ensures_next ?_
    dsimp only
    split
    · rw [← pc]
      exact pollOcr_polls (h.setTmp _) (.inl pc)
    · refine .inl ?_
      rw [pc]
      nofun

theorem stepBMmc_polls (pc : s.seq.pc = .bMmc) : Ensures (stepBMmc s) fun t => t.seq.pc ≠ s.seq.pc ∨ Polled s t := by
  refine ((issueCommand_sameLoop _ rfl s).bind fun _ h => h.keepOcr).bind fun u h => ensures_next ?_
  split
  · rw [← pc]
    exact pollOcr_polls h (.inr pc)
  · refine .inl ?_
    rw [pc]
    nofun

theorem leaveRecovery_pc (u : State) : (leaveRecovery u).seq.pc ≠ .tRecover := by
  unfold leaveRecovery
  dsimp only
  split <;> nofun

theorem stepTRecover_polls (pc : s.seq.pc = .tRecover) (polling : s.seq.polling = true) :
    Ensures (stepTRecover s) fun t => t.seq.pc ≠ s.seq.pc ∨ Polled s t := by
  rw [stepTRecover_poll polling, pc]
  refine (issueCommand_sameLoop _ rfl s).bind fun u h => ensures_next ?_
  unfold afterPoll
  split
  · exact .inl (leaveRecovery_pc _)
  · split
    · exact .inl (leaveRecovery_pc _)
    · exact .inr (h.polled ‹_›)

/-- The entry of recovery sends CMD12 and starts the loop (45_block_transfer.md R262). -/
theorem stepTRecover_enters (entry : s.seq.polling = false) :
    Ensures (stepTRecover s) fun t => t.seq.pc = s.seq.pc ∧ t.seq.polling = true ∧ t.fetch = s.fetch := by
  rw [stepTRecover_stop entry]
  exact (issueCommand_sameLoop _ rfl s).bind fun _ h => ensures_next ⟨h.pc, rfl, h.fetch⟩

end

/-! ### A coherent machine in a loop -/

/-- A coherent machine stands at the label of a polling loop. -/
structure InLoop (s : State) : Prop where
  coherent : s.Coherent
  fetch : s.fetch = none
  loop : s.seq.pc ∈ [Label.bSd, .bMmc, .tRecover]

/-- The next step polls: only at the entry of recovery it does not. -/
def State.Asking (s : State) : Prop := s.seq.pc = .tRecover → s.seq.polling = true

/-- After some number of steps the sequencer stands at another label. -/
def State.Leaves (s : State) : Prop := ∃ n, Reaches n s fun t => t.seq.pc ≠ s.seq.pc

section
variable {s t : State}

theorem InLoop.busy (h : InLoop s) : s.seq.busy = true := by
  obtain ⟨⟨sound, _⟩, _, loop⟩ := h
  obtain ⟨_, sequencer⟩ := (sound_iff s).1 sound
  by_contra idle
  rw [State.SequencerSound, Bool.eq_false_of_not_eq_true idle] at sequencer
  change s.seq.pc = .idle at sequencer
  rw [sequencer] at loop
  exact absurd loop (by decide)

theorem InLoop.here (h : InLoop s) : s.At s.seq.pc := by
  obtain ⟨⟨_, ⟨free, _⟩, _⟩, _⟩ := (sound_iff s).1 h.coherent.1
  exact ⟨h.fetch, h.busy, free, rfl⟩

/-- In a loop every step has a next state, which is coherent again. -/
theorem InLoop.next (h : InLoop s) : ∃ t, step s = .next t ∧ t.Coherent := by
  obtain ⟨sound, agrees⟩ := (coherent_iff s).1 h.coherent
  have loop := h.loop
  have proceeds : Proceeds True (runSequencer s) := by
    refine runSequencer_proceeds sound (fun _ => agrees) (fun _ pc => ?_) (fun _ pc => ?_) <;> rw [pc] at loop
    · exact absurd loop (by decide)
    · exact absurd loop (by decide)
  obtain ⟨t, run⟩ := proceeds.exists_next trivial
  rw [← step_of_fetch_none h.fetch] at run
  exact ⟨t, run, stepKeepsCoherent s t h.coherent (by rw [State.HostOnly, h.fetch]; trivial) run⟩

theorem InLoop.polls (h : InLoop s) (asking : s.Asking) : Ensures (step s) fun t => t.seq.pc ≠ s.seq.pc ∨ Polled s t := by
  have here := h.here
  have loop := h.loop
  simp only [List.mem_cons, List.not_mem_nil, or_false] at loop
  obtain pc | pc | pc := loop
  · rw [State.At.step_eq (l := .bSd) (pc ▸ here)]
    exact stepBSd_polls pc
  · rw [State.At.step_eq (l := .bMmc) (pc ▸ here)]
    exact stepBMmc_polls pc
  · rw [State.At.step_eq (l := .tRecover) (pc ▸ here)]
    exact stepTRecover_polls pc (asking pc)

theorem leaves_of_step (run : step s = .next t) (same : t.seq.pc = s.seq.pc) (k : t.Leaves) : s.Leaves := by
  obtain ⟨n, u, runs, away⟩ := k
  refine ⟨n + 1, u, ?_, by rwa [← same]⟩
  rw [runSteps, run]
  exact runs

/-- A loop is left if it is left after the next poll. -/
theorem InLoop.leaves_of_polled (h : InLoop s) (asking : s.Asking)
    (k : ∀ t, InLoop t → t.Asking → Polled s t → t.Leaves) : s.Leaves := by
  obtain ⟨t, run, coherent⟩ := h.next
  obtain away | polled := h.polls asking t run
  · exact ⟨1, reaches_of_step run away⟩
  · refine leaves_of_step run polled.pc (k t ⟨coherent, polled.fetch.trans h.fetch, by rw [polled.pc]; exact h.loop⟩ ?_ polled)
    rw [State.Asking, polled.pc, polled.polling]
    exact asking

/-- Once TIMER has been asked, the number of its answers left falls with every poll. -/
theorem InLoop.leaves_of_budget {n : Nat} (h : InLoop s) (asking : s.Asking) (budget : s.env.budget = some n) : s.Leaves := by
  induction n using Nat.strong_induction_on generalizing s with
  | _ n ih =>
    refine h.leaves_of_polled asking fun t inLoop asks polled => ?_
    obtain ⟨k, left, fewer⟩ := polled.budget
    exact ih k (fewer n budget) inLoop asks left

theorem InLoop.leaves_of_asking (h : InLoop s) (asking : s.Asking) : s.Leaves := by
  refine h.leaves_of_polled asking fun t inLoop asks polled => ?_
  obtain ⟨k, left, _⟩ := polled.budget
  exact inLoop.leaves_of_budget asks left

/-- Recovery enters its loop first, and every loop is left. -/
theorem InLoop.leaves (h : InLoop s) : s.Leaves := by
  by_cases asking : s.Asking
  · exact h.leaves_of_asking asking
  · obtain ⟨pc, entry⟩ := Classical.not_imp.1 asking
    obtain ⟨t, run, coherent⟩ := h.next
    have enters := run
    rw [h.here.step_eq, pc] at enters
    obtain ⟨same, polling, fetch⟩ := stepTRecover_enters (Bool.eq_false_of_not_eq_true entry) t enters
    have inLoop : InLoop t := ⟨coherent, fetch.trans h.fetch, by rw [same]; exact h.loop⟩
    exact leaves_of_step run same (inLoop.leaves_of_asking fun _ => polling)

end

/-! ### The statement -/

/-- Settles O57: every step proceeds (`runSequencer_proceeds`), every loop is left (`InLoop.leaves`), no step faults (`step_ne_fault`). -/
theorem requestsAlwaysStep : Obligations.RequestsAlwaysStep := by
  refine ⟨fun s coherent usable fetch range => ?_, fun s coherent fetch _ loop => ?_, fun s f sound => step_ne_fault sound f⟩
  · obtain ⟨sound, agrees⟩ := (coherent_iff s).1 coherent
    have proceeds := runSequencer_proceeds (C := True) sound (fun _ => agrees) (fun _ _ => usable) fun _ => range
    rw [← step_of_fetch_none fetch] at proceeds
    exact proceeds.exists_next trivial
  · exact InLoop.leaves ⟨coherent, fetch, loop⟩

end Sys2Proof.Machine
end

section
/-! The history of a data command (70_reset_and_hazards.md R334, R335): whatever the card answers, nothing but block events comes between
the command and the completion events. -/

namespace Sys2Proof.Machine

/-- The event by which a data phase of direction `dir` records a block that it has moved. -/
def Event.RecordsBlock (dir : Dir) (e : Event) : Prop :=
  ∃ i bytes, (e = .blockIn i bytes ∧ dir = .read) ∨ (e = .blockOut i bytes ∧ dir = .write)

/-- From `s` to `t` the history grows by at most `n` events, each of a moved block. -/
def BlocksRecorded (dir : Dir) (n : Nat) (s t : State) : Prop :=
  ∃ blocks, t.hist = s.hist ++ blocks ∧ blocks.length ≤ n ∧ ∀ e ∈ blocks, e.RecordsBlock dir

section
variable {dir : Dir} {m n : Nat} {s t u : State}

theorem BlocksRecorded.of_same (h : t.hist = s.hist) (n : Nat) : BlocksRecorded dir n s t := ⟨[], by simp [h], Nat.zero_le n, nofun⟩

theorem BlocksRecorded.single {e : Event} (h : t.hist = s.hist ++ [e]) (records : e.RecordsBlock dir) : BlocksRecorded dir 1 s t :=
  ⟨[e], h, le_rfl, by simpa using records⟩

theorem BlocksRecorded.mono (h : BlocksRecorded dir m s t) (le : m ≤ n) : BlocksRecorded dir n s t := by
  obtain ⟨blocks, hist, few, records⟩ := h
  exact ⟨blocks, hist, few.trans le, records⟩

theorem BlocksRecorded.trans (h : BlocksRecorded dir m s t) (k : BlocksRecorded dir n t u) : BlocksRecorded dir (m + n) s u := by
  obtain ⟨first, hist, few, records⟩ := h
  obtain ⟨second, hist', few', records'⟩ := k
  refine ⟨first ++ second, by rw [hist', hist, List.append_assoc], ?_, fun e he => ?_⟩
  · rw [List.length_append]
    exact Nat.add_le_add few few'
  · exact (List.mem_append.1 he).elim (records e) (records' e)

end

theorem dir_eq_write {dir : Dir} (data : dir ≠ .none) (noRead : dir ≠ .read) : dir = .write := by
  cases dir
  case none => exact absurd rfl data
  case read => exact absurd rfl noRead
  case write => rfl

/-- A block that moves is recorded once, and one that fails is not recorded. -/
theorem moveBlock_recorded {s : State} (data : s.de.dir ≠ .none) (bc : BitVec 16) : BlocksRecorded s.de.dir 1 s (moveBlock bc s).1 := by
  have target : ∀ blk (t : State), (writeTarget blk t).hist = t.hist := fun blk t => by
    obtain ⟨_, hist, _⟩ := writeTarget_frame blk t
    exact hist
  rcases moveBlock_cases bc s with ⟨blk, _, read, run⟩ | ⟨noRead, run⟩ | ⟨_, run⟩ | ⟨st, _, run⟩ <;> rw [run]
  · exact .single (e := .blockIn (bc.toNat - s.de.blocksLeft.toNat) blk) (by simp [target]) ⟨_, blk, .inl ⟨rfl, read⟩⟩
  · exact .single rfl ⟨_, readTarget s.dropBlock, .inr ⟨rfl, dir_eq_write data noRead⟩⟩
  · exact .of_same (by simp [target]) 1
  · exact .of_same rfl 1

/-- R335: a data phase records at most one event for each block that it may move. -/
theorem moveBlocks_recorded {s : State} (data : s.de.dir ≠ .none) (bc : BitVec 16) (n : Nat) :
    BlocksRecorded s.de.dir n s (moveBlocks bc n s).1 := by
  induction n generalizing s with
  | zero => exact .of_same rfl 0
  | succ n ih =>
    have first := moveBlock_recorded data bc
    have sameDir := (moveBlock_carried bc s).dir
    have rest := ih (s := (moveBlock bc s).1) (by rwa [sameDir])
    rw [sameDir] at rest
    simp only [moveBlocks]
    split
    · exact (first.trans rest).mono (Nat.add_comm 1 n).le
    · exact first.mono (Nat.le_add_left 1 n)

/-- A failed response moves no block; after a good one there are at most `bc`. -/
theorem dataPhase_recorded {cd : Descriptor} {r : State × TStatus} (dir : r.1.de.dir = cd.dir) (bc : BitVec 16) :
    BlocksRecorded cd.dir bc.toNat r.1 (dataPhase cd bc r).1 := by
  unfold dataPhase
  split
  case isTrue goesOn =>
    rw [← dir]
    exact moveBlocks_recorded (dir ▸ goesOn.2) bc bc.toNat
  case isFalse => exact .of_same rfl bc.toNat

/-- R334, R335: the engine is armed before the only command, its blocks follow, then the completion events and the response. -/
theorem issueRun_data_hist {cd : Descriptor} (data : cd.dir ≠ .none) (p : Port) (bc bs : BitVec 16) (buf : PrimBuf) (s : State) :
    ∃ blocks words, (issueRun p cd bc bs buf s).hist = s.hist ++ [.arm cd.dir bc bs (pathOf buf s.cfg), .cmd p cd] ++ blocks ++
        irqEvents s.cfg ++ [.resp (issueRun p cd bc bs buf s).ctl.tstatus words] ∧
      blocks.length ≤ bc.toNat ∧ ∀ e ∈ blocks, e.RecordsBlock cd.dir := by
  have start := responded_dataStart data p bc bs buf s
  obtain ⟨blocks, hist, few, records⟩ := dataPhase_recorded (r := responsePhase cd.rk (dispatched p cd bc bs buf s))
    (congrArg Engine.dir start.de) bc
  have ends := issueRun_endsFrom (p := p) (cd := cd) (bc := bc) (bs := bs) (buf := buf) (s := s) rfl rfl
  obtain ⟨_, status, _⟩ := ends.after
  have before : (responsePhase cd.rk (dispatched p cd bc bs buf s)).1.hist = _ := start.hist
  exact ⟨blocks, _, by rw [ends.hist, hist, before, status], few, records⟩

/-- Settles O24: an accepted data command is a whole `issue` (`exec_issue_of_accepted`), whose history is `issueRun_data_hist`. -/
theorem armPrecedesDispatch : Obligations.ArmPrecedesDispatch := by
  intro p cd bc bs buf s t data run
  obtain ⟨e, refused, _⟩ | ⟨accepted, _⟩ := issue_cases p cd bc bs buf s
  · rw [exec_issue_of_refused refused] at run
    cases run
  · rw [exec_issue_of_accepted accepted] at run
    cases run
    obtain ⟨blocks, words, hist, few, records⟩ := issueRun_data_hist data p bc bs buf s
    exact ⟨blocks, _, words, hist, few, rfl, records⟩

end Sys2Proof.Machine
end
